-- ==== Sys2Proof/Word.lean ====
section
/-! DEFINITION. The widths of the AS5600 codec block (`00_scope.md` R9, `30_encoding.md` R65), as names for
core bit vectors. A bit vector stands here only for what the spec itself treats as bits. -/

namespace Sys2Proof

/-- 8 bits: a device register address, a register's data, a transport status code (R9). -/
abbrev Byte := BitVec 8

/-- 16 bits: the `D` field of a command and the operands of SETBF and GETBF (R66, R67). -/
abbrev Half := BitVec 16

/-- 32 bits: `CMD`, `AUX`, `RESULT`, `RESULT2` (R34, R65). -/
abbrev Word := BitVec 32

/-- 12 bits: a value of the circular angle domain 0..4095 (R9, R165). -/
abbrev Angle := BitVec 12

/-- 7 bits: an address of the bus (R9, R40). -/
abbrev BusAddr := BitVec 7

end Sys2Proof
end

