-- ==== Sys2Proof/Config.lean ====
section
/-! DEFINITION. What is fixed for the life of a block instance (`00_scope.md` R8), and the free values.

The parameters are plain data: `Params` is a field of the machine's state, so that a statement about every
state is a statement about every parameter set. Their DEFAULTS stand in `Machine/Params.lean`. The free
values (`opaque`, no body) are what the spec leaves open: the oracle's answers (R43) and the draws (R15). -/

namespace Sys2Proof

/-- `VARIANT` (R2): which sensor variant the block is built for. -/
inductive Variant where
  | base
  | addressable
  deriving DecidableEq, Repr

/-- The seven settable fields of the configuration word (R18, R120). -/
inductive Field where
  | pm
  | hyst
  | outs
  | pwmf
  | sf
  | fth
  | wd
  deriving DecidableEq, Repr

/-- The two bytes of the CONF register pair (R42, R121): `high` is 0x07 and holds word bits 13:8, `low` is
0x08 and holds word bits 7:0. -/
inductive ConfByte where
  | high
  | low
  deriving DecidableEq, Repr

/-- Where a field lies: its byte and the shift in that byte (R120). -/
structure FieldPos where
  byte : ConfByte
  shift : Nat
  deriving DecidableEq, Repr

/-- `CONF_LAYOUT` (R8, R120): one position for each field. The widths and the numbers of legal values are the
source's and no part of the parameter. -/
structure ConfLayout where
  pm : FieldPos
  hyst : FieldPos
  outs : FieldPos
  pwmf : FieldPos
  sf : FieldPos
  fth : FieldPos
  wd : FieldPos
  deriving DecidableEq, Repr

/-- `STATUS_MASKS` (R8, R200): the bits of the STATUS byte the decoder reads. -/
structure StatusMasks where
  magnetTooStrong : Byte
  magnetTooWeak : Byte
  magnetDetected : Byte
  deriving DecidableEq, Repr

/-- The parameters of R8. `TICK_SECONDS` is the positive rational `tickNum / tickDen`. -/
structure Params where
  variant : Variant
  tsw : Nat
  tickNum : Nat
  tickDen : Nat
  offsetTolCdeg : Nat
  layout : ConfLayout
  statusMasks : StatusMasks
  deriving DecidableEq, Repr

namespace Config

/-- FREE VALUE (R43, R45): the status code the transport answers, where the state scripts none.
Nothing constrains it. Applied to `State.draws` plus the number of transactions ahead. -/
opaque oracleStatus : Nat → Byte

/-- FREE VALUE (R43): the byte the sensor answers, where the state scripts none. Nothing constrains it. -/
opaque oracleByte : Nat → Byte

/-- FREE VALUE (R35, D5): a `RESULT` or `RESULT2` word of a BUS_ERROR response. Nothing constrains it. -/
opaque drawWord : Nat → Word

/-- FREE VALUE (R181, D27): the angle HIST keeps after a failed SPEED_SAMPLE. Nothing constrains it. -/
opaque drawAngle : Nat → Angle

end Config

end Sys2Proof
end

