-- ==== Sys2Proof/Machine/Params.lean ====
section
/-! DEFINITION. The fixed facts of the configuration fields (`41_config_fields.md` R120, R121) and the defaults of
the parameters (`00_scope.md` R8). -/

namespace Sys2Proof.Machine

/-- The seven fields in the order of R120's table. -/
def allFields : List Field := [.pm, .hyst, .outs, .pwmf, .sf, .fth, .wd]

/-- A field's width in bits (R120). -/
def fieldWidth : Field → Nat
  | .pm => 2
  | .hyst => 2
  | .outs => 2
  | .pwmf => 2
  | .sf => 2
  | .fth => 3
  | .wd => 1

/-- `validCount`: the number of legal values of a field (R120). Output mode has 3 of its 4. -/
def fieldValidCount : Field → Nat
  | .pm => 4
  | .hyst => 4
  | .outs => 3
  | .pwmf => 4
  | .sf => 4
  | .fth => 8
  | .wd => 2

/-- A field's unshifted mask (R120, D11). -/
def fieldMask : Field → Half
  | .pm => 0x3#16
  | .hyst => 0x3#16
  | .outs => 0x3#16
  | .pwmf => 0x3#16
  | .sf => 0x3#16
  | .fth => 0x7#16
  | .wd => 0x1#16

/-- A field's position in a layout. -/
def fieldPos (l : ConfLayout) : Field → FieldPos
  | .pm => l.pm
  | .hyst => l.hyst
  | .outs => l.outs
  | .pwmf => l.pwmf
  | .sf => l.sf
  | .fth => l.fth
  | .wd => l.wd

/-- The register address of a byte of the CONF pair (R42: 0x07–0x08). -/
def confByteReg : ConfByte → Byte
  | .high => 0x07#8
  | .low => 0x08#8

/-- The register that holds the field (R120). -/
def fieldReg (l : ConfLayout) (f : Field) : Byte := confByteReg (fieldPos l f).byte

/-- The field's shift in its byte (R120). -/
def fieldShift (l : ConfLayout) (f : Field) : Nat := (fieldPos l f).shift

/-- `F.wordShift`: the low bit of the field in the 14-bit word (R121). -/
def fieldWordShift (l : ConfLayout) (f : Field) : Nat :=
  match (fieldPos l f).byte with
  | .high => 8 + (fieldPos l f).shift
  | .low => (fieldPos l f).shift

/-- The default of `CONF_LAYOUT`, R120's table. PRESUMED (log 3): the spec marks it 'from general knowledge,
not in source' (D10, G1). -/
def defaultLayout : ConfLayout where
  pm := ⟨.low, 0⟩
  hyst := ⟨.low, 2⟩
  outs := ⟨.low, 4⟩
  pwmf := ⟨.low, 6⟩
  sf := ⟨.high, 0⟩
  fth := ⟨.high, 2⟩
  wd := ⟨.high, 5⟩

/-- The default of `STATUS_MASKS`, R200's table. PRESUMED (log 4): the spec marks it 'from general knowledge,
not in source' (D17, G2). -/
def defaultStatusMasks : StatusMasks where
  magnetTooStrong := 0x08#8
  magnetTooWeak := 0x10#8
  magnetDetected := 0x20#8

/-- The parameters at the defaults of R8, for a given variant (R8 leaves `VARIANT` open). -/
def defaultParams (v : Variant) : Params where
  variant := v
  tsw := 32
  tickNum := 1
  tickDen := 1000000
  offsetTolCdeg := 0
  layout := defaultLayout
  statusMasks := defaultStatusMasks

/-- The variant `State.reset` is built with. DESIGN CHOICE (log 2): R8 leaves it open; the variant whose
opcode map has all 48 rows (R70) is taken. Every other reset state is `State.resetWith`. -/
def resetVariant : Variant := .addressable

/-- The reset value of `ADDR` (R21, R32). -/
def resetAddr : Variant → BusAddr
  | .base => 0x36#7
  | .addressable => 0x40#7

end Sys2Proof.Machine
end

