-- ==== Sys2Proof/Syntax.lean ====
section
/-! DEFINITION. The commands of the opcode map (`30_encoding.md` R72): one constructor a row, with the operands
R67 assembles. A value operand keeps all the 16 bits of `D`: it is checked by the command's meaning and never
truncated (R68). A command that ignores `AUX` has no `AUX` operand (R69). -/

namespace Sys2Proof

/-- One command as the host presents it (R65): `CMD` and `AUX`. -/
structure Command where
  cmd : Word
  aux : Word
  deriving DecidableEq, Repr

/-- The 48 commands. -/
inductive Instr where
  -- Register Codec primitives (40_codec_primitives.md)
  | read8 (reg : Byte)
  | write8 (reg : Byte) (v : Half)
  | read12 (reg : Byte)
  | read14 (reg : Byte)
  | write12 (reg : Byte) (v : Half)
  | write14 (reg : Byte) (v : Half)
  | setbf (shift : BitVec 4) (cur mask new : Half)
  | getbf (shift : BitVec 4) (word mask : Half)
  -- configuration bitfields (41_config_fields.md)
  | setPm (v : Half)
  | getPm
  | setHyst (v : Half)
  | getHyst
  | setOuts (v : Half)
  | getOuts
  | setPwmf (v : Half)
  | getPwmf
  | setSf (v : Half)
  | getSf
  | setFth (v : Half)
  | getFth
  | setWd (v : Half)
  | getWd
  | getConf
  | setConf (v : Half)
  -- position registers (42_position_registers.md)
  | getZmco
  | getZpos
  | setZpos (v : Half)
  | getMpos
  | setMpos (v : Half)
  | getMang
  | setMang (v : Half)
  -- Angle & Offset Engine and Velocity Estimator (43_angle_offset.md)
  | rawAngle
  | angle
  | effAngle
  | setOffsetRaw (v : Half)
  | getOffsetRaw
  | setOffsetCdeg (c : Word)
  | getOffsetDeg
  | toDeg (v : Half)
  | wrapDelta (cur : Half) (last : Word)
  | speedSample (now : Word)
  -- Status Decoder (44_status.md)
  | readStatusFlags
  | readAgc
  | readMagnitude
  -- Device Handle (45_handle.md)
  | probe
  | getAddress
  | setAddress (v : Half)
  | getLastError
  deriving DecidableEq, Repr

end Sys2Proof
end

