-- ==== Sys2Proof/WellFormed.lean ====
section
/-! DEFINITION. Well-formed instructions and well-formed parameters.

An instruction's operands fit their fields by their types; the one check left is R70's: SET_ADDRESS is in the
opcode map only when `VARIANT = ADDRESSABLE`. The bounds of the assembler's numbers (R77) are checked by
`Machine/Assembler.lean`. -/

namespace Sys2Proof

/-- `i` has a row in the variant's opcode map (R70, R72). -/
def Instr.wf (variant : Variant) : Instr → Bool
  | .setAddress _ => variant == .addressable
  | .read8 _ | .write8 _ _ | .read12 _ | .read14 _ | .write12 _ _ | .write14 _ _ => true
  | .setbf _ _ _ _ | .getbf _ _ _ => true
  | .setPm _ | .getPm | .setHyst _ | .getHyst | .setOuts _ | .getOuts | .setPwmf _ | .getPwmf => true
  | .setSf _ | .getSf | .setFth _ | .getFth | .setWd _ | .getWd | .getConf | .setConf _ => true
  | .getZmco | .getZpos | .setZpos _ | .getMpos | .setMpos _ | .getMang | .setMang _ => true
  | .rawAngle | .angle | .effAngle | .setOffsetRaw _ | .getOffsetRaw | .setOffsetCdeg _ => true
  | .getOffsetDeg | .toDeg _ | .wrapDelta _ _ | .speedSample _ => true
  | .readStatusFlags | .readAgc | .readMagnitude => true
  | .probe | .getAddress | .getLastError => true

/-- The field lies wholly in its byte (R120: 'one field per byte'; 'every field lies wholly within one byte'). -/
def FieldPos.inByte (p : FieldPos) (width : Nat) : Bool := decide (p.shift + width ≤ 8)

/-- Two fields share no bit (R120: 'no overlap'). -/
def FieldPos.disjoint (p : FieldPos) (pw : Nat) (q : FieldPos) (qw : Nat) : Bool :=
  p.byte != q.byte || decide (p.shift + pw ≤ q.shift) || decide (q.shift + qw ≤ p.shift)

/-- The three constraints R120 puts on a layout passed as an argument; the widths and numbers of legal values are no part of
it. DESIGN CHOICE (log 22): a field may lie at bits 7:6 of byte 0x07. R120 says that those bits 'belong to no field' beside
its default table, and its constraints do not exclude them. -/
def ConfLayout.wf (l : ConfLayout) : Bool :=
  Machine.allFields.all fun f =>
    (Machine.fieldPos l f).inByte (Machine.fieldWidth f) &&
    Machine.allFields.all fun g =>
      f == g || (Machine.fieldPos l f).disjoint (Machine.fieldWidth f) (Machine.fieldPos l g) (Machine.fieldWidth g)

/-- The byte has exactly one bit set. -/
def singleBit (m : Byte) : Bool := (List.range 8).any fun k => m == 1#8 <<< k

/-- The constraint R200 puts on the masks: 'three distinct single-bit masks'. -/
def StatusMasks.wf (m : StatusMasks) : Bool :=
  singleBit m.magnetTooStrong && singleBit m.magnetTooWeak && singleBit m.magnetDetected &&
  m.magnetTooStrong != m.magnetTooWeak && m.magnetTooStrong != m.magnetDetected &&
  m.magnetTooWeak != m.magnetDetected

/-- The domains of R8. -/
def Params.wf (p : Params) : Bool :=
  decide (1 ≤ p.tsw) && decide (p.tsw ≤ 32) &&
  decide (0 < p.tickNum) && decide (0 < p.tickDen) &&
  decide (p.offsetTolCdeg ≤ 999) &&
  p.layout.wf && p.statusMasks.wf

end Sys2Proof
end

