-- ==== Sys2Proof/Decode.lean ====
section
/-! DEFINITION. Reading a command (`30_encoding.md` R66 to R73), the encoder, and the opcode map as a table.

`decode` is total on every `CMD` and `AUX` and rejects by name. `opcodeMap` transcribes R72's rows with their
match and mask, and `matchingRow` is R70's own loop over them: an obligation says the two agree. -/

namespace Sys2Proof

/-- `OP = CMD[31:24]` (R66). -/
def cmdOp (cmd : Word) : Byte := cmd.extractLsb' 24 8

/-- `A = CMD[23:16]` (R66). -/
def cmdA (cmd : Word) : Byte := cmd.extractLsb' 16 8

/-- `D = CMD[15:0]` (R66). -/
def cmdD (cmd : Word) : Half := cmd.extractLsb' 0 16

/-- `A[7:4]`, reserved in SETBF and GETBF (R67). -/
def aHigh (a : Byte) : BitVec 4 := a.extractLsb' 4 4

/-- `shift = A[3:0]` (R67). -/
def aShift (a : Byte) : BitVec 4 := a.extractLsb' 0 4

/-- `newValue = AUX[31:16]` (R67). -/
def auxHigh (aux : Word) : Half := aux.extractLsb' 16 16

/-- `fieldMask = AUX[15:0]` (R67). -/
def auxLow (aux : Word) : Half := aux.extractLsb' 0 16

/-- Why a command word is outside the opcode map: the three causes of `60_exceptions.md` R223. -/
inductive Illegal where
  | reservedOpcode
  | reservedField
  | absentOnBase
  deriving DecidableEq, Repr

/-- What the decoder answers: an instruction, or a rejection by name. -/
inductive Decoded where
  | instr (i : Instr)
  | illegal (why : Illegal)
  deriving DecidableEq, Repr

/-- The decoder's answer as an option. -/
def decodedInstr : Decoded → Option Instr
  | .instr i => some i
  | .illegal _ => none

/-- An assigned opcode whose reserved fields are 0 is the instruction; otherwise R69. -/
def whenReservedZero (zero : Bool) (i : Instr) : Decoded :=
  if zero then .instr i else .illegal .reservedField

/-- R70 by the fields of R66. Reads no state but the variant. -/
def decode (variant : Variant) (c : Command) : Decoded :=
  let a := cmdA c.cmd
  let d := cmdD c.cmd
  match (cmdOp c.cmd).toNat with
  -- Register Codec primitives
  | 0x01 => whenReservedZero (d == 0#16) (.read8 a)
  | 0x02 => .instr (.write8 a d)
  | 0x03 => whenReservedZero (d == 0#16) (.read12 a)
  | 0x04 => whenReservedZero (d == 0#16) (.read14 a)
  | 0x05 => .instr (.write12 a d)
  | 0x06 => .instr (.write14 a d)
  | 0x07 => whenReservedZero (aHigh a == 0#4) (.setbf (aShift a) d (auxLow c.aux) (auxHigh c.aux))
  | 0x08 => whenReservedZero (aHigh a == 0#4) (.getbf (aShift a) d (auxLow c.aux))
  -- configuration bitfields
  | 0x10 => whenReservedZero (a == 0#8) (.setPm d)
  | 0x11 => whenReservedZero (a == 0#8 && d == 0#16) .getPm
  | 0x12 => whenReservedZero (a == 0#8) (.setHyst d)
  | 0x13 => whenReservedZero (a == 0#8 && d == 0#16) .getHyst
  | 0x14 => whenReservedZero (a == 0#8) (.setOuts d)
  | 0x15 => whenReservedZero (a == 0#8 && d == 0#16) .getOuts
  | 0x16 => whenReservedZero (a == 0#8) (.setPwmf d)
  | 0x17 => whenReservedZero (a == 0#8 && d == 0#16) .getPwmf
  | 0x18 => whenReservedZero (a == 0#8) (.setSf d)
  | 0x19 => whenReservedZero (a == 0#8 && d == 0#16) .getSf
  | 0x1A => whenReservedZero (a == 0#8) (.setFth d)
  | 0x1B => whenReservedZero (a == 0#8 && d == 0#16) .getFth
  | 0x1C => whenReservedZero (a == 0#8) (.setWd d)
  | 0x1D => whenReservedZero (a == 0#8 && d == 0#16) .getWd
  | 0x1E => whenReservedZero (a == 0#8 && d == 0#16) .getConf
  | 0x1F => whenReservedZero (a == 0#8) (.setConf d)
  -- position registers
  | 0x20 => whenReservedZero (a == 0#8 && d == 0#16) .getZmco
  | 0x21 => whenReservedZero (a == 0#8 && d == 0#16) .getZpos
  | 0x22 => whenReservedZero (a == 0#8) (.setZpos d)
  | 0x23 => whenReservedZero (a == 0#8 && d == 0#16) .getMpos
  | 0x24 => whenReservedZero (a == 0#8) (.setMpos d)
  | 0x25 => whenReservedZero (a == 0#8 && d == 0#16) .getMang
  | 0x26 => whenReservedZero (a == 0#8) (.setMang d)
  -- Angle & Offset Engine and Velocity Estimator
  | 0x30 => whenReservedZero (a == 0#8 && d == 0#16) .rawAngle
  | 0x31 => whenReservedZero (a == 0#8 && d == 0#16) .angle
  | 0x32 => whenReservedZero (a == 0#8 && d == 0#16) .effAngle
  | 0x33 => whenReservedZero (a == 0#8) (.setOffsetRaw d)
  | 0x34 => whenReservedZero (a == 0#8 && d == 0#16) .getOffsetRaw
  | 0x35 => whenReservedZero (a == 0#8 && d == 0#16) (.setOffsetCdeg c.aux)
  | 0x36 => whenReservedZero (a == 0#8 && d == 0#16) .getOffsetDeg
  | 0x37 => whenReservedZero (a == 0#8) (.toDeg d)
  | 0x38 => whenReservedZero (a == 0#8) (.wrapDelta d c.aux)
  | 0x39 => whenReservedZero (a == 0#8 && d == 0#16) (.speedSample c.aux)
  -- Status Decoder
  | 0x40 => whenReservedZero (a == 0#8 && d == 0#16) .readStatusFlags
  | 0x41 => whenReservedZero (a == 0#8 && d == 0#16) .readAgc
  | 0x42 => whenReservedZero (a == 0#8 && d == 0#16) .readMagnitude
  -- Device Handle
  | 0x50 => whenReservedZero (a == 0#8 && d == 0#16) .probe
  | 0x51 => whenReservedZero (a == 0#8 && d == 0#16) .getAddress
  | 0x52 =>
    match variant with
    | .base => .illegal .absentOnBase
    | .addressable => whenReservedZero (a == 0#8) (.setAddress d)
  | 0x53 => whenReservedZero (a == 0#8 && d == 0#16) .getLastError
  | _ => .illegal .reservedOpcode

/-- A command word from its three fields (R66). -/
def cmdWord (op a : Byte) (d : Half) : Word := op ++ a ++ d

/-- `AUX` of SETBF: `{newValue, fieldMask}` (R66). -/
def auxPair (high low : Half) : Word := high ++ low

/-- `A` of SETBF and GETBF: `{0b0000, shift}` (R66). -/
def shiftByte (shift : BitVec 4) : Byte := 0#4 ++ shift

/-- The words of an instruction, from R72's opcodes and R76's operand placement. `AUX` is 0 where the command
ignores it. -/
def encode : Instr → Command
  -- Register Codec primitives
  | .read8 reg => ⟨cmdWord 0x01#8 reg 0#16, 0#32⟩
  | .write8 reg v => ⟨cmdWord 0x02#8 reg v, 0#32⟩
  | .read12 reg => ⟨cmdWord 0x03#8 reg 0#16, 0#32⟩
  | .read14 reg => ⟨cmdWord 0x04#8 reg 0#16, 0#32⟩
  | .write12 reg v => ⟨cmdWord 0x05#8 reg v, 0#32⟩
  | .write14 reg v => ⟨cmdWord 0x06#8 reg v, 0#32⟩
  | .setbf shift cur mask new => ⟨cmdWord 0x07#8 (shiftByte shift) cur, auxPair new mask⟩
  | .getbf shift word mask => ⟨cmdWord 0x08#8 (shiftByte shift) word, auxPair 0#16 mask⟩
  -- configuration bitfields
  | .setPm v => ⟨cmdWord 0x10#8 0#8 v, 0#32⟩
  | .getPm => ⟨cmdWord 0x11#8 0#8 0#16, 0#32⟩
  | .setHyst v => ⟨cmdWord 0x12#8 0#8 v, 0#32⟩
  | .getHyst => ⟨cmdWord 0x13#8 0#8 0#16, 0#32⟩
  | .setOuts v => ⟨cmdWord 0x14#8 0#8 v, 0#32⟩
  | .getOuts => ⟨cmdWord 0x15#8 0#8 0#16, 0#32⟩
  | .setPwmf v => ⟨cmdWord 0x16#8 0#8 v, 0#32⟩
  | .getPwmf => ⟨cmdWord 0x17#8 0#8 0#16, 0#32⟩
  | .setSf v => ⟨cmdWord 0x18#8 0#8 v, 0#32⟩
  | .getSf => ⟨cmdWord 0x19#8 0#8 0#16, 0#32⟩
  | .setFth v => ⟨cmdWord 0x1A#8 0#8 v, 0#32⟩
  | .getFth => ⟨cmdWord 0x1B#8 0#8 0#16, 0#32⟩
  | .setWd v => ⟨cmdWord 0x1C#8 0#8 v, 0#32⟩
  | .getWd => ⟨cmdWord 0x1D#8 0#8 0#16, 0#32⟩
  | .getConf => ⟨cmdWord 0x1E#8 0#8 0#16, 0#32⟩
  | .setConf v => ⟨cmdWord 0x1F#8 0#8 v, 0#32⟩
  -- position registers
  | .getZmco => ⟨cmdWord 0x20#8 0#8 0#16, 0#32⟩
  | .getZpos => ⟨cmdWord 0x21#8 0#8 0#16, 0#32⟩
  | .setZpos v => ⟨cmdWord 0x22#8 0#8 v, 0#32⟩
  | .getMpos => ⟨cmdWord 0x23#8 0#8 0#16, 0#32⟩
  | .setMpos v => ⟨cmdWord 0x24#8 0#8 v, 0#32⟩
  | .getMang => ⟨cmdWord 0x25#8 0#8 0#16, 0#32⟩
  | .setMang v => ⟨cmdWord 0x26#8 0#8 v, 0#32⟩
  -- Angle & Offset Engine and Velocity Estimator
  | .rawAngle => ⟨cmdWord 0x30#8 0#8 0#16, 0#32⟩
  | .angle => ⟨cmdWord 0x31#8 0#8 0#16, 0#32⟩
  | .effAngle => ⟨cmdWord 0x32#8 0#8 0#16, 0#32⟩
  | .setOffsetRaw v => ⟨cmdWord 0x33#8 0#8 v, 0#32⟩
  | .getOffsetRaw => ⟨cmdWord 0x34#8 0#8 0#16, 0#32⟩
  | .setOffsetCdeg c => ⟨cmdWord 0x35#8 0#8 0#16, c⟩
  | .getOffsetDeg => ⟨cmdWord 0x36#8 0#8 0#16, 0#32⟩
  | .toDeg v => ⟨cmdWord 0x37#8 0#8 v, 0#32⟩
  | .wrapDelta cur last => ⟨cmdWord 0x38#8 0#8 cur, last⟩
  | .speedSample now => ⟨cmdWord 0x39#8 0#8 0#16, now⟩
  -- Status Decoder
  | .readStatusFlags => ⟨cmdWord 0x40#8 0#8 0#16, 0#32⟩
  | .readAgc => ⟨cmdWord 0x41#8 0#8 0#16, 0#32⟩
  | .readMagnitude => ⟨cmdWord 0x42#8 0#8 0#16, 0#32⟩
  -- Device Handle
  | .probe => ⟨cmdWord 0x50#8 0#8 0#16, 0#32⟩
  | .getAddress => ⟨cmdWord 0x51#8 0#8 0#16, 0#32⟩
  | .setAddress v => ⟨cmdWord 0x52#8 0#8 v, 0#32⟩
  | .getLastError => ⟨cmdWord 0x53#8 0#8 0#16, 0#32⟩

/-- The mnemonic of an instruction, as the opcode table spells it (R72). -/
def mnemonicOf : Instr → String
  | .read8 _ => "READ8"
  | .write8 _ _ => "WRITE8"
  | .read12 _ => "READ12"
  | .read14 _ => "READ14"
  | .write12 _ _ => "WRITE12"
  | .write14 _ _ => "WRITE14"
  | .setbf _ _ _ _ => "SETBF"
  | .getbf _ _ _ => "GETBF"
  | .setPm _ => "SET_PM"
  | .getPm => "GET_PM"
  | .setHyst _ => "SET_HYST"
  | .getHyst => "GET_HYST"
  | .setOuts _ => "SET_OUTS"
  | .getOuts => "GET_OUTS"
  | .setPwmf _ => "SET_PWMF"
  | .getPwmf => "GET_PWMF"
  | .setSf _ => "SET_SF"
  | .getSf => "GET_SF"
  | .setFth _ => "SET_FTH"
  | .getFth => "GET_FTH"
  | .setWd _ => "SET_WD"
  | .getWd => "GET_WD"
  | .getConf => "GET_CONF"
  | .setConf _ => "SET_CONF"
  | .getZmco => "GET_ZMCO"
  | .getZpos => "GET_ZPOS"
  | .setZpos _ => "SET_ZPOS"
  | .getMpos => "GET_MPOS"
  | .setMpos _ => "SET_MPOS"
  | .getMang => "GET_MANG"
  | .setMang _ => "SET_MANG"
  | .rawAngle => "RAW_ANGLE"
  | .angle => "ANGLE"
  | .effAngle => "EFF_ANGLE"
  | .setOffsetRaw _ => "SET_OFFSET_RAW"
  | .getOffsetRaw => "GET_OFFSET_RAW"
  | .setOffsetCdeg _ => "SET_OFFSET_CDEG"
  | .getOffsetDeg => "GET_OFFSET_DEG"
  | .toDeg _ => "TO_DEG"
  | .wrapDelta _ _ => "WRAP_DELTA"
  | .speedSample _ => "SPEED_SAMPLE"
  | .readStatusFlags => "READ_STATUS_FLAGS"
  | .readAgc => "READ_AGC"
  | .readMagnitude => "READ_MAGNITUDE"
  | .probe => "PROBE"
  | .getAddress => "GET_ADDRESS"
  | .setAddress _ => "SET_ADDRESS"
  | .getLastError => "GET_LAST_ERROR"

/-- How a row's operands are written and placed (R66, R76). -/
inductive OperandForm where
  /-- no operand -/
  | bare
  /-- `reg` -/
  | reg
  /-- `reg, v` -/
  | regValue
  /-- `v` -/
  | value
  /-- `shift, cur, mask, new` -/
  | setBitfield
  /-- `shift, word, mask` -/
  | getBitfield
  /-- `c`, signed -/
  | centidegrees
  /-- `cur, last` -/
  | curLast
  /-- `now` -/
  | timestamp
  deriving DecidableEq, Repr

/-- One row of R72's opcode map. -/
structure OpcodeRow where
  mnemonic : String
  pattern : Word
  mask : Word
  form : OperandForm
  deriving DecidableEq, Repr

/-- R72's rows: Register Codec primitives. -/
def codecRows : List OpcodeRow := [
  ⟨"READ8", 0x01000000#32, 0xFF00FFFF#32, .reg⟩,
  ⟨"WRITE8", 0x02000000#32, 0xFF000000#32, .regValue⟩,
  ⟨"READ12", 0x03000000#32, 0xFF00FFFF#32, .reg⟩,
  ⟨"READ14", 0x04000000#32, 0xFF00FFFF#32, .reg⟩,
  ⟨"WRITE12", 0x05000000#32, 0xFF000000#32, .regValue⟩,
  ⟨"WRITE14", 0x06000000#32, 0xFF000000#32, .regValue⟩,
  ⟨"SETBF", 0x07000000#32, 0xFFF00000#32, .setBitfield⟩,
  ⟨"GETBF", 0x08000000#32, 0xFFF00000#32, .getBitfield⟩]

/-- R72's rows: configuration bitfields. -/
def configRows : List OpcodeRow := [
  ⟨"SET_PM", 0x10000000#32, 0xFFFF0000#32, .value⟩,
  ⟨"GET_PM", 0x11000000#32, 0xFFFFFFFF#32, .bare⟩,
  ⟨"SET_HYST", 0x12000000#32, 0xFFFF0000#32, .value⟩,
  ⟨"GET_HYST", 0x13000000#32, 0xFFFFFFFF#32, .bare⟩,
  ⟨"SET_OUTS", 0x14000000#32, 0xFFFF0000#32, .value⟩,
  ⟨"GET_OUTS", 0x15000000#32, 0xFFFFFFFF#32, .bare⟩,
  ⟨"SET_PWMF", 0x16000000#32, 0xFFFF0000#32, .value⟩,
  ⟨"GET_PWMF", 0x17000000#32, 0xFFFFFFFF#32, .bare⟩,
  ⟨"SET_SF", 0x18000000#32, 0xFFFF0000#32, .value⟩,
  ⟨"GET_SF", 0x19000000#32, 0xFFFFFFFF#32, .bare⟩,
  ⟨"SET_FTH", 0x1A000000#32, 0xFFFF0000#32, .value⟩,
  ⟨"GET_FTH", 0x1B000000#32, 0xFFFFFFFF#32, .bare⟩,
  ⟨"SET_WD", 0x1C000000#32, 0xFFFF0000#32, .value⟩,
  ⟨"GET_WD", 0x1D000000#32, 0xFFFFFFFF#32, .bare⟩,
  ⟨"GET_CONF", 0x1E000000#32, 0xFFFFFFFF#32, .bare⟩,
  ⟨"SET_CONF", 0x1F000000#32, 0xFFFF0000#32, .value⟩]

/-- R72's rows: position registers. -/
def positionRows : List OpcodeRow := [
  ⟨"GET_ZMCO", 0x20000000#32, 0xFFFFFFFF#32, .bare⟩,
  ⟨"GET_ZPOS", 0x21000000#32, 0xFFFFFFFF#32, .bare⟩,
  ⟨"SET_ZPOS", 0x22000000#32, 0xFFFF0000#32, .value⟩,
  ⟨"GET_MPOS", 0x23000000#32, 0xFFFFFFFF#32, .bare⟩,
  ⟨"SET_MPOS", 0x24000000#32, 0xFFFF0000#32, .value⟩,
  ⟨"GET_MANG", 0x25000000#32, 0xFFFFFFFF#32, .bare⟩,
  ⟨"SET_MANG", 0x26000000#32, 0xFFFF0000#32, .value⟩]

/-- R72's rows: Angle & Offset Engine and Velocity Estimator. -/
def angleRows : List OpcodeRow := [
  ⟨"RAW_ANGLE", 0x30000000#32, 0xFFFFFFFF#32, .bare⟩,
  ⟨"ANGLE", 0x31000000#32, 0xFFFFFFFF#32, .bare⟩,
  ⟨"EFF_ANGLE", 0x32000000#32, 0xFFFFFFFF#32, .bare⟩,
  ⟨"SET_OFFSET_RAW", 0x33000000#32, 0xFFFF0000#32, .value⟩,
  ⟨"GET_OFFSET_RAW", 0x34000000#32, 0xFFFFFFFF#32, .bare⟩,
  ⟨"SET_OFFSET_CDEG", 0x35000000#32, 0xFFFFFFFF#32, .centidegrees⟩,
  ⟨"GET_OFFSET_DEG", 0x36000000#32, 0xFFFFFFFF#32, .bare⟩,
  ⟨"TO_DEG", 0x37000000#32, 0xFFFF0000#32, .value⟩,
  ⟨"WRAP_DELTA", 0x38000000#32, 0xFFFF0000#32, .curLast⟩,
  ⟨"SPEED_SAMPLE", 0x39000000#32, 0xFFFFFFFF#32, .timestamp⟩]

/-- R72's rows: Status Decoder. -/
def statusRows : List OpcodeRow := [
  ⟨"READ_STATUS_FLAGS", 0x40000000#32, 0xFFFFFFFF#32, .bare⟩,
  ⟨"READ_AGC", 0x41000000#32, 0xFFFFFFFF#32, .bare⟩,
  ⟨"READ_MAGNITUDE", 0x42000000#32, 0xFFFFFFFF#32, .bare⟩]

/-- R72's rows: Device Handle. -/
def handleRows : List OpcodeRow := [
  ⟨"PROBE", 0x50000000#32, 0xFFFFFFFF#32, .bare⟩,
  ⟨"GET_ADDRESS", 0x51000000#32, 0xFFFFFFFF#32, .bare⟩,
  ⟨"SET_ADDRESS", 0x52000000#32, 0xFFFF0000#32, .value⟩,
  ⟨"GET_LAST_ERROR", 0x53000000#32, 0xFFFFFFFF#32, .bare⟩]

/-- R72's opcode map: 48 rows. -/
def opcodeMap : List OpcodeRow :=
  codecRows ++ configRows ++ positionRows ++ angleRows ++ statusRows ++ handleRows

/-- The variant's rows: 'if `VARIANT = BASE`, the row `SET_ADDRESS` is absent from the map' (R70). -/
def variantRows : Variant → List OpcodeRow
  | .base => opcodeMap.filter fun r => r.mnemonic != "SET_ADDRESS"
  | .addressable => opcodeMap

/-- `(CMD & row.mask) == row.match` (R70). -/
def rowMatches (r : OpcodeRow) (cmd : Word) : Bool := cmd &&& r.mask == r.pattern

/-- R70's loop: the first row that matches. -/
def matchingRow (variant : Variant) (cmd : Word) : Option OpcodeRow :=
  (variantRows variant).find? fun r => rowMatches r cmd

/-- The two words of a table word: `CMD` is its bits 31..0 and `AUX`, the operand word that follows, its bits
63..32 (0 where the table gives the row 32 bits). -/
def tableCommand (nbits w : Nat) : Command :=
  ⟨BitVec.ofNat 32 (w % 2 ^ nbits), BitVec.ofNat 32 (w % 2 ^ nbits / 2 ^ 32)⟩

/-- What the decoder reads from a word numbered as the opcode table numbers it. The table is the map of the
variant that has all 48 rows (its SET_ADDRESS row says 'present only when VARIANT = ADDRESSABLE'). -/
def decodeTableWord (nbits w : Nat) : Option Instr :=
  decodedInstr (decode .addressable (tableCommand nbits w))

end Sys2Proof
end

