-- ==== Sys2Proof/Machine/State.lean ====
section
/-! DEFINITION. The state of the machine.

The block itself holds exactly four registers (`10_state.md` R20): `addr`, `offset`, `hist`, `lastErr`. The other
fields are the parameters of the instance (R8), what the outside world presents to the block (the host's
commands, the sensor and the transport's answers), what the block has put out (the response, the history of
Transport calls), and one counter of the model's own for free values. -/

namespace Sys2Proof.Machine

/-- Bytes of the device register space, by register address. Canonical form: `Memory.wf` in `Machine/Ops.lean`. -/
abbrev Memory := List Host.Cell

/-- One sample of the Velocity Estimator (R23). `lastTime` fits `TSW` bits: an invariant (`State.Inv`). -/
structure Sample where
  lastAngle : Angle
  lastTime : Word
  deriving DecidableEq, Repr

/-- `STATUS` of a response (R74). -/
inductive Status where
  | ok
  | invalidArgument
  | busError
  | illegalCommand
  deriving DecidableEq, Repr

/-- A response (R34): `STATUS`, `RESULT`, `RESULT2`. -/
structure Response where
  status : Status
  result : Word
  result2 : Word
  deriving DecidableEq, Repr

/-- One Transport call, as R50 records it. -/
inductive Event where
  /-- `Sel(addr, reg, s)`: a register select that answered `s` -/
  | sel (addr : BusAddr) (reg : Byte) (code : Byte)
  /-- `Req(addr, 1, s)`: a request of `count` bytes that answered `s` -/
  | req (addr : BusAddr) (count : Nat) (code : Byte)
  /-- `Rd(b)`: the byte a read returned -/
  | rd (b : Byte)
  /-- `Wr(addr, reg, b, s)`: a register write that answered `s` -/
  | wr (addr : BusAddr) (reg : Byte) (b : Byte) (code : Byte)
  /-- `Prb(addr, s)`: a probe that answered `s` -/
  | prb (addr : BusAddr) (code : Byte)
  deriving DecidableEq, Repr

/-- What the outside world scripts for one transaction (R43; R64's 'override the answer of any single
transaction'). `none` leaves that part to the sensor: a free value under `Sensor.oracle`, R64's answer under
`Sensor.regFile`. -/
structure Answer where
  status : Option Byte
  data : Option Byte
  deriving DecidableEq, Repr

/-- How the sensor answers what no script fixes. -/
inductive Sensor where
  /-- the unconstrained oracle of R43 -/
  | oracle
  /-- the register-file oracle of R64, for tests only: a 256-byte array, every status code 0. A write whose status
  a test made non-zero reaches the array only if `failedWritesLand` ('rule R64 leaves that choice to the test',
  `95_test_vectors.md` P4) -/
  | regFile (dev : Memory) (failedWritesLand : Bool)
  deriving DecidableEq, Repr

/-- The machine. -/
structure State where
  /-- the instance's parameters (R8); no step changes them -/
  params : Params
  /-- `ADDR` (R21) -/
  addr : BusAddr
  /-- `OFFSET` (R22) -/
  offset : Angle
  /-- `HIST` (R23): `none` is the spec's own `NONE` -/
  hist : Option Sample
  /-- `LAST_ERR` (R24) -/
  lastErr : Byte
  /-- the commands the host has yet to present, the next one first (R65, R27) -/
  commands : List Command
  /-- the sensor behind the Transport Port (R43, R64) -/
  sensor : Sensor
  /-- the scripted answers of the transactions to come, the next one first (R43, R64) -/
  answers : List Answer
  /-- the model's own counter: which free value is next -/
  draws : Nat
  /-- the response outputs (R34): `none` before the first command's response (R36) -/
  response : Option Response
  /-- the history of Transport calls (R50), oldest first -/
  history : List Event
  deriving DecidableEq, Repr

/-- Why a step could stop with a fault: never. 'INVALID_ARGUMENT, BUS_ERROR and ILLEGAL_COMMAND are ordinary
responses, not model faults' and 'Anything the spec does not define for an admitted command word does not exist'
(`60_exceptions.md` R237); there is no trap (R227). So no reason exists and nothing raises one (safe). -/
inductive Fault where
  deriving DecidableEq, Repr

/-- Why a step could be refused. -/
inductive Refusal where
  /-- the instruction has no meaning yet; raised only by an arm of `exec` that rejects by name, and no arm does
  (safe) -/
  | notModelled (mnemonic : String)
  deriving DecidableEq, Repr

/-- The outcome of a step. -/
abbrev Outcome := Host.Outcome State Fault Refusal

/-- The state after construction (R32, R245) of a block with parameters `p`: nothing placed by the host, the
sensor the unconstrained oracle, no event, no response. `draws` starts at 0: DESIGN CHOICE (log 6). -/
def State.resetWith (p : Params) : State where
  params := p
  addr := resetAddr p.variant
  offset := 0#12
  hist := none
  lastErr := 0#8
  commands := []
  sensor := .oracle
  answers := []
  draws := 0
  response := none
  history := []

/-- The machine right after reset, at the default parameters. -/
def State.reset : State := State.resetWith (defaultParams resetVariant)

end Sys2Proof.Machine
end

