-- ==== Sys2Proof/Machine/Ops.lean ====
section
/-! DEFINITION. The operations every command is made of: the register-file memory of R64, the oracle's answers
(R43), the transactions of `20_memory.md` R46 to R49, the pair accesses of `40_codec_primitives.md` R100 and R101,
and the responses of `00_scope.md` R12, R14. There is no exception entry and no return from one: the block has no
trap mechanism (R227, R228), and raising an error is responding with its `STATUS` (R14). -/

namespace Sys2Proof.Machine

/-! ## The register-file memory (R64) -/

/-- What an unlisted register of the register file reads as. DESIGN CHOICE (log 7): R64 has the test give all 256
bytes; the model lists the non-zero ones. -/
def unlistedByte : Byte := 0#8

/-- Read one byte. -/
def Memory.read : Memory → Nat → Byte
  | [], _ => unlistedByte
  | (k, b) :: rest, a => if k = a then b else Memory.read rest a

/-- Write one byte, keeping the canonical form. -/
def Memory.write : Memory → Nat → Byte → Memory
  | [], a, b => if b = unlistedByte then [] else [(a, b)]
  | (k, c) :: rest, a, b =>
    if a < k then (if b = unlistedByte then (k, c) :: rest else (a, b) :: (k, c) :: rest)
    else if a = k then (if b = unlistedByte then rest else (a, b) :: rest)
    else (k, c) :: Memory.write rest a b

/-- The cells rise strictly from `lo`, stay under 256 and differ from what an unlisted register reads as. -/
def Memory.wfFrom : Nat → Memory → Bool
  | _, [] => true
  | lo, (k, b) :: rest =>
    decide (lo ≤ k) && decide (k < 256) && decide (b ≠ unlistedByte) && Memory.wfFrom (k + 1) rest

/-- The canonical form: equal register files are equal lists. -/
def Memory.wf (m : Memory) : Bool := Memory.wfFrom 0 m

/-! ## The oracle's answers (R43, R64) -/

/-- The status code that the transaction `j` ahead answers (`j = 0`: the next one). -/
def answerStatus (s : State) (j : Nat) : Byte :=
  match (s.answers[j]?).bind Answer.status with
  | some code => code
  | none =>
    match s.sensor with
    | .oracle => Config.oracleStatus (s.draws + j)
    | .regFile _ _ => 0#8

/-- The byte that the transaction `j` ahead answers, if it is a request for register `reg`. -/
def answerByte (s : State) (j : Nat) (reg : Byte) : Byte :=
  match (s.answers[j]?).bind Answer.data with
  | some b => b
  | none =>
    match s.sensor with
    | .oracle => Config.oracleByte (s.draws + j)
    | .regFile dev _ => dev.read reg.toNat

/-- What a write that answered `code` does to the sensor: nothing the model knows under the oracle (R43),
`dev[reg] <- b` under the register file (R64). -/
def sensorWrite (sensor : Sensor) (reg b code : Byte) : Sensor :=
  match sensor with
  | .oracle => .oracle
  | .regFile dev lands => if code = 0#8 || lands then .regFile (dev.write reg.toNat b) lands else .regFile dev lands

/-! ## Transactions (R44 to R50) -/

/-- A Transport access either completes with a value, or ends its command (R14). Either way it leaves a state. -/
inductive BusResult (α : Type) where
  | done (value : α) (s : State)
  | failed (s : State)

/-- Record a Transport call (R50). -/
def record (e : Event) (s : State) : State := { s with history := s.history ++ [e] }

/-- One transaction returned `code`: `LAST_ERR <- code` before anything else is issued (R46). -/
def settle (e : Event) (code : Byte) (s : State) : State :=
  { s with
    lastErr := code
    answers := s.answers.drop 1
    draws := s.draws + 1
    history := s.history ++ [e] }

/-- The select transaction of `MemRead` (R47): `beginTransaction(ADDR); writeByte(reg); endTransaction()`. -/
def selectRegister (reg : Byte) (s : State) : BusResult Unit :=
  let code := answerStatus s 0
  let t := settle (.sel s.addr reg code) code s
  if code = 0#8 then .done () t else .failed t

/-- The request transaction of `MemRead` (R47): `requestBytes(ADDR, 1)`, then `readByte()` if it succeeded. -/
def requestByte (reg : Byte) (s : State) : BusResult Byte :=
  let code := answerStatus s 0
  let b := answerByte s 0 reg
  let t := settle (.req s.addr 1 code) code s
  if code = 0#8 then .done b (record (.rd b) t) else .failed t

/-- `MemRead(reg, 1)` (R47). -/
def memRead (reg : Byte) (s : State) : BusResult Byte :=
  match selectRegister reg s with
  | .failed t => .failed t
  | .done _ t => requestByte reg t

/-- `MemWrite(reg, 1, b)` (R48). -/
def memWrite (reg b : Byte) (s : State) : BusResult Unit :=
  let code := answerStatus s 0
  let t := settle (.wr s.addr reg b code) code { s with sensor := sensorWrite s.sensor reg b code }
  if code = 0#8 then .done () t else .failed t

/-- `Probe()` (R49): never a bus error. -/
def probeBus (s : State) : Bool × State :=
  let code := answerStatus s 0
  (code == 0#8, settle (.prb s.addr code) code s)

/-! ## Register pairs (R51, R100, R101) -/

/-- The two widths a register pair holds (R100, C1). -/
inductive PairWidth where
  | w12
  | w14
  deriving DecidableEq, Repr

/-- `W`. -/
def pairBits : PairWidth → Nat
  | .w12 => 12
  | .w14 => 14

/-- `hm = 2^(W-8) - 1` (R100). -/
def pairHighMask : PairWidth → Byte
  | .w12 => 0x0F#8
  | .w14 => 0x3F#8

/-- `((hi & hm) << 8) | lo` (R100): big-endian, the bits of `hi` above `hm` discarded. -/
def pairValue (w : PairWidth) (hi lo : Byte) : Half :=
  ((hi &&& pairHighMask w).setWidth 16 <<< 8) ||| lo.setWidth 16

/-- `(v >> 8) & hm` (R101): the byte written at `reg`. -/
def pairHighByte (w : PairWidth) (v : Half) : Byte := (v >>> 8).setWidth 8 &&& pairHighMask w

/-- `v & 0xFF` (R101): the byte written at `reg + 1`. -/
def pairLowByte (v : Half) : Byte := (v &&& 0x00FF#16).setWidth 8

/-- `ReadPair(reg, W)` (R100): `reg`, then `reg + 1`; a failed first byte ends it (D7). -/
def readPair (w : PairWidth) (reg : Byte) (s : State) : BusResult Half :=
  match memRead reg s with
  | .failed t => .failed t
  | .done hi t =>
    match memRead (reg + 1#8) t with
    | .failed u => .failed u
    | .done lo u => .done (pairValue w hi lo) u

/-- `WritePair(reg, W, v)` (R101): a failed first write ends it; a completed one stays (D7). -/
def writePair (w : PairWidth) (reg : Byte) (v : Half) (s : State) : BusResult Unit :=
  match memWrite reg (pairHighByte w v) s with
  | .failed t => .failed t
  | .done _ t => memWrite (reg + 1#8) (pairLowByte v) t

/-! ## Responses (R12, R14, R34, R35) -/

/-- `respond(s, r, r2)`. -/
def respond (status : Status) (r r2 : Word) (s : State) : State :=
  { s with response := some ⟨status, r, r2⟩ }

/-- `respond(OK, r)`: the second word is 0 (R12, R35). -/
def respondOk (r : Word) (s : State) : State := respond .ok r 0#32 s

/-- `raise InvalidArgument` (R14, R221): no state change, both words 0 (R35). -/
def raiseInvalidArgument (s : State) : State := respond .invalidArgument 0#32 0#32 s

/-- `raise IllegalCommand` (R14, R223): no state change, both words 0 (R35). -/
def raiseIllegalCommand (s : State) : State := respond .illegalCommand 0#32 0#32 s

/-- `raise BusError` (R14, R222): both words are draws (R35). The code already stands in `LAST_ERR`. -/
def raiseBusError (s : State) : State :=
  respond .busError (Config.drawWord s.draws) (Config.drawWord (s.draws + 1)) { s with draws := s.draws + 2 }

/-- What a command does after a Transport access: go on with the value, or raise BusError (R46). -/
def afterBus {α : Type} (r : BusResult α) (next : α → State → State) : State :=
  match r with
  | .done v t => next v t
  | .failed t => raiseBusError t

/-! ## The command interface (R65) -/

/-- The command the host presents next, and the state with it taken. -/
def takeCommand (s : State) : Option (Command × State) :=
  match s.commands with
  | [] => none
  | c :: rest => some (c, { s with commands := rest })

/-- The host presents `c` next. -/
def presentCommand (c : Command) (s : State) : State := { s with commands := c :: s.commands }

/-- `STATUS` as the two bits of R74. -/
def statusCode : Status → BitVec 2
  | .ok => 0b00#2
  | .invalidArgument => 0b01#2
  | .busError => 0b10#2
  | .illegalCommand => 0b11#2

end Sys2Proof.Machine
end

