-- ==== Sys2Proof/Machine/Operands.lean ====
section
/-! DEFINITION. Operand assembly and the range checks of value operands (`30_encoding.md` R67, R68; `20_memory.md`
R56), and the widenings of `00_scope.md` R10. -/

namespace Sys2Proof.Machine

/-- `zext_32` of a 16-bit word (R10). -/
def zext32 (v : Half) : Word := v.setWidth 32

/-- `zext_32` of a byte (R10). -/
def zextByte (b : Byte) : Word := b.setWidth 32

/-- `sext_32` (R10): the 32-bit two's-complement pattern of an integer. -/
def sext32 (v : Int) : Word := BitVec.ofInt 32 v

/-- The reading of `AUX` as a signed number of hundredths of a degree (R67). -/
def signedCdeg (aux : Word) : Int := if aux.msb then (aux.toNat : Int) - 2 ^ 32 else aux.toNat

/-- A single-byte access that would touch BURN (R56: `reg = 0xFF`). -/
def touchesBurn8 (reg : Byte) : Bool := reg == 0xFF#8

/-- A pair access that would touch BURN (R56: `reg = 0xFE` or `reg = 0xFF`). -/
def touchesBurn16 (reg : Byte) : Bool := decide (0xFE ≤ reg.toNat)

/-- `v > 0xFF` (R106). -/
def over8 (v : Half) : Bool := decide (v.toNat > 0xFF)

/-- `v > 0x0FFF` (R109, R152, R170, R177, R180). -/
def over12 (v : Half) : Bool := decide (v.toNat > 0x0FFF)

/-- `v > 0x3FFF` (R110, R140). -/
def over14 (v : Half) : Bool := decide (v.toNat > 0x3FFF)

/-- `last > 0x0FFF` for a 32-bit operand (R180). -/
def over12Word (v : Word) : Bool := decide (v.toNat > 0x0FFF)

/-- `now >= 2^TSW` (R181). -/
def overTsw (p : Params) (now : Word) : Bool := decide (now.toNat ≥ 2 ^ p.tsw)

/-- `abs(c) > 36000 + OFFSET_TOL_CDEG` (R172, R174). -/
def overOffsetBound (p : Params) (c : Int) : Bool := decide (c.natAbs > 36000 + p.offsetTolCdeg)

/-- `v < 0x08 or v > 0x77` (R212, R214). -/
def outsideBusRange (v : Half) : Bool := decide (v.toNat < 0x08) || decide (v.toNat > 0x77)

/-- A value operand of at most 8 bits as a byte. -/
def toByte (v : Half) : Byte := v.setWidth 8

/-- A value of at most 12 bits as an angle. -/
def toAngle (v : Half) : Angle := v.setWidth 12

/-- A value of at most 7 bits as a bus address. -/
def toBusAddr (v : Half) : BusAddr := v.setWidth 7

/-! ## Bitfields (R102, R103) -/

/-- `SetBitfield(cur, mask, shift, new)` (R102). A 16-bit shift left is the shift mod 2^16. -/
def setBitfield (cur mask : Half) (shift : Nat) (new : Half) : Half :=
  (cur &&& ~~~(mask <<< shift)) ||| ((new &&& mask) <<< shift)

/-- `GetBitfield(word, mask, shift)` (R103). -/
def getBitfield (word mask : Half) (shift : Nat) : Half := (word >>> shift) &&& mask

/-- Validation of a setter (R122): `v < F.validCount`, `v` the full 16-bit operand. -/
def fieldAccepts (f : Field) (v : Half) : Bool := decide (v.toNat < fieldValidCount f)

/-- The byte a setter writes back (R123): `SetBitfield(b, F.mask, F.shift, v) & 0xFF`. -/
def insertField (l : ConfLayout) (f : Field) (b : Byte) (v : Half) : Byte :=
  (setBitfield (b.setWidth 16) (fieldMask f) (fieldShift l f) v &&& 0x00FF#16).setWidth 8

/-- The value a getter returns (R124): the field of the byte, unvalidated. -/
def extractField (l : ConfLayout) (f : Field) (b : Byte) : Half :=
  getBitfield (b.setWidth 16) (fieldMask f) (fieldShift l f)

/-- SET_CONF's check of one sub-field (R140). -/
def confFieldAccepts (l : ConfLayout) (v : Half) (f : Field) : Bool :=
  decide ((getBitfield v (fieldMask f) (fieldWordShift l f)).toNat < fieldValidCount f)

/-- SET_CONF's check of every sub-field (R140). -/
def confAccepts (l : ConfLayout) (v : Half) : Bool := allFields.all (confFieldAccepts l v)

/-! ## The circular domain (R168, R173, R179) -/

/-- `EffectiveAngle(r, o) = (r + o) mod 4096` (R168). -/
def effectiveAngle (r o : Nat) : Nat := (r + o) % 4096

/-- `roundNearest(n / d)` (R11) for a positive `d`: the floor of `n/d + 1/2`. R176 shows no tie occurs. -/
def roundNearest (n : Int) (d : Nat) : Int := (2 * n + d) / (2 * d)

/-- `CdegToRaw(c) = roundNearest(c * 128 / 1125) mod 4096` (R173), with R11's `mod`. -/
def cdegToRaw (c : Int) : Nat := (roundNearest (c * 128) 1125 % 4096).toNat

/-- `WrapDelta(cur, last)` (R179). -/
def wrapDelta (cur last : Int) : Int :=
  let d := cur - last
  if d > 2048 then d - 4096
  else if d < -2048 then d + 4096
  else d

/-- `(now - lt) mod 2^TSW` (R181). -/
def timeDelta (p : Params) (now lt : Word) : Nat := (((now.toNat : Int) - lt.toNat) % (2 ^ p.tsw : Nat)).toNat

/-- A raw value in units of 1/512 degree: `v * 45` (R175, R177). -/
def degrees512 (v : Nat) : Word := BitVec.ofNat 32 (v * 45)

/-- The pair `(dr, dt)` of a sample (R181): (0, 0) for the first sample and for a zero time step. -/
def sampleDelta (p : Params) (hist : Option Sample) (r : Angle) (now : Word) : Int × Nat :=
  match hist with
  | none => (0, 0)
  | some old =>
    let dt := timeDelta p now old.lastTime
    if dt = 0 then (0, 0) else (wrapDelta r.toNat old.lastAngle.toNat, dt)

end Sys2Proof.Machine
end

