-- ==== Sys2Proof/Machine/Flags.lean ====
section
/-! DEFINITION. The magnet flags of the Status Decoder (`44_status.md` R201, R202). They are outputs: the block has no
condition codes or status flags in its state (`10_state.md` R28). -/

namespace Sys2Proof.Machine

/-- One decoded flag: `(s & mask) != 0` (R201). -/
def flagSet (s mask : Byte) : Bool := s &&& mask != 0#8

/-- The three independent flags of R201. -/
structure MagnetFlags where
  detected : Bool
  tooWeak : Bool
  tooStrong : Bool
  deriving DecidableEq, Repr

/-- `DecodeStatus(s)` (R201). -/
def decodeStatus (m : StatusMasks) (s : Byte) : MagnetFlags where
  detected := flagSet s m.magnetDetected
  tooWeak := flagSet s m.magnetTooWeak
  tooStrong := flagSet s m.magnetTooStrong

/-- `zext_32({mh, ml, md})` (R202): `RESULT[0]` detected, `[1]` too weak, `[2]` too strong. -/
def flagsWord (f : MagnetFlags) : Word :=
  (BitVec.ofBool f.tooStrong ++ BitVec.ofBool f.tooWeak ++ BitVec.ofBool f.detected : BitVec 3).setWidth 32

end Sys2Proof.Machine
end

