-- ==== Sys2Proof/Machine/Position.lean ====
section
/-! DEFINITION. Position registers (`42_position_registers.md` R150 to R157). The getters assemble big-endian (R157, C2). -/

namespace Sys2Proof.Machine

/-- A 12-bit getter of a fixed pair (R151). Also the angle and magnitude reads (R166, R167, R204). -/
def readFixedPair (reg : Byte) (s : State) : State :=
  afterBus (readPair .w12 reg s) fun v t => respondOk (zext32 v) t

/-- A 12-bit setter of a fixed pair (R152). -/
def writeFixedPair (reg : Byte) (v : Half) (s : State) : State :=
  if over12 v then raiseInvalidArgument s
  else afterBus (writePair .w12 reg v s) fun _ t => respondOk 0#32 t

/-- GET_ZMCO (R150): all 8 bits of register 0x00. -/
def execGetZmco (s : State) : Outcome :=
  .next (afterBus (memRead 0x00#8 s) fun b t => respondOk (zextByte b) t)

/-- GET_ZPOS (R151): the pair at 0x01. -/
def execGetZpos (s : State) : Outcome := .next (readFixedPair 0x01#8 s)

/-- SET_ZPOS (R152): the pair at 0x01. -/
def execSetZpos (v : Half) (s : State) : Outcome := .next (writeFixedPair 0x01#8 v s)

/-- GET_MPOS (R153): the pair at 0x03. -/
def execGetMpos (s : State) : Outcome := .next (readFixedPair 0x03#8 s)

/-- SET_MPOS (R154): the pair at 0x03. -/
def execSetMpos (v : Half) (s : State) : Outcome := .next (writeFixedPair 0x03#8 v s)

/-- GET_MANG (R155): the pair at 0x05. -/
def execGetMang (s : State) : Outcome := .next (readFixedPair 0x05#8 s)

/-- SET_MANG (R156): the pair at 0x05. -/
def execSetMang (v : Half) (s : State) : Outcome := .next (writeFixedPair 0x05#8 v s)

end Sys2Proof.Machine
end

