-- ==== Sys2Proof/Machine/AngleOffset.lean ====
section
/-! DEFINITION. Angle & Offset Engine and the velocity sample (`43_angle_offset.md` R166 to R181). -/

namespace Sys2Proof.Machine

/-- RAW_ANGLE (R166): the pair at 0x0C; the offset is not applied. -/
def execRawAngle (s : State) : Outcome := .next (readFixedPair 0x0C#8 s)

/-- ANGLE (R167): the pair at 0x0E; the offset is not applied. -/
def execAngle (s : State) : Outcome := .next (readFixedPair 0x0E#8 s)

/-- EFF_ANGLE (R169): the raw angle plus `OFFSET`, mod 4096. -/
def execEffAngle (s : State) : Outcome :=
  .next (afterBus (readPair .w12 0x0C#8 s) fun r t =>
    respondOk (BitVec.ofNat 32 (effectiveAngle r.toNat t.offset.toNat)) t)

/-- SET_OFFSET_RAW (R170). -/
def execSetOffsetRaw (v : Half) (s : State) : Outcome :=
  .next (if over12 v then raiseInvalidArgument s else respondOk 0#32 { s with offset := toAngle v })

/-- GET_OFFSET_RAW (R171). -/
def execGetOffsetRaw (s : State) : Outcome := .next (respondOk (s.offset.setWidth 32) s)

/-- SET_OFFSET_CDEG (R174). -/
def execSetOffsetCdeg (c : Word) (s : State) : Outcome :=
  .next (if overOffsetBound s.params (signedCdeg c) then raiseInvalidArgument s
    else respondOk 0#32 { s with offset := BitVec.ofNat 12 (cdegToRaw (signedCdeg c)) })

/-- GET_OFFSET_DEG (R175): `OFFSET * 45`, in units of 1/512 degree. -/
def execGetOffsetDeg (s : State) : Outcome := .next (respondOk (degrees512 s.offset.toNat) s)

/-- TO_DEG (R177): `v * 45`, in units of 1/512 degree. -/
def execToDeg (v : Half) (s : State) : Outcome :=
  .next (if over12 v then raiseInvalidArgument s else respondOk (degrees512 v.toNat) s)

/-- WRAP_DELTA (R180): `HIST` is neither read nor written. -/
def execWrapDelta (cur : Half) (last : Word) (s : State) : Outcome :=
  .next (if over12 cur || over12Word last then raiseInvalidArgument s
    else respondOk (sext32 (wrapDelta cur.toNat last.toNat)) s)

/-- The end of a SPEED_SAMPLE whose angle read failed (R181, D27): `HIST <- SOME(draw_12, now)`, then BusError. -/
def failSample (now : Word) (s : State) : State :=
  raiseBusError { s with hist := some ⟨Config.drawAngle s.draws, now⟩, draws := s.draws + 1 }

/-- The end of a SPEED_SAMPLE that read `r` (R181): the deltas against `HIST`, then `HIST <- SOME(r, now)`. -/
def finishSample (r : Angle) (now : Word) (s : State) : State :=
  let d := sampleDelta s.params s.hist r now
  respond .ok (sext32 d.1) (BitVec.ofNat 32 d.2) { s with hist := some ⟨r, now⟩ }

/-- SPEED_SAMPLE (R181). -/
def execSpeedSample (now : Word) (s : State) : Outcome :=
  .next (if overTsw s.params now then raiseInvalidArgument s
    else
      match readPair .w12 0x0C#8 s with
      | .failed t => failSample now t
      | .done r t => finishSample (toAngle r) now t)

end Sys2Proof.Machine
end

