-- ==== Sys2Proof/Machine/Codec.lean ====
section
/-! DEFINITION. Register Codec primitives (`40_codec_primitives.md` R105 to R112). -/

namespace Sys2Proof.Machine

/-- A pair read at an operand address (R107, R108). -/
def readPairCommand (w : PairWidth) (reg : Byte) (s : State) : State :=
  if touchesBurn16 reg then raiseInvalidArgument s
  else afterBus (readPair w reg s) fun v t => respondOk (zext32 v) t

/-- A pair write at an operand address (R109, R110), `tooWide` the width check. -/
def writePairCommand (w : PairWidth) (tooWide : Bool) (reg : Byte) (v : Half) (s : State) : State :=
  if touchesBurn16 reg || tooWide then raiseInvalidArgument s
  else afterBus (writePair w reg v s) fun _ t => respondOk 0#32 t

/-- READ8 (R105). -/
def execRead8 (reg : Byte) (s : State) : Outcome :=
  .next (if touchesBurn8 reg then raiseInvalidArgument s
    else afterBus (memRead reg s) fun b t => respondOk (zextByte b) t)

/-- WRITE8 (R106). -/
def execWrite8 (reg : Byte) (v : Half) (s : State) : Outcome :=
  .next (if touchesBurn8 reg || over8 v then raiseInvalidArgument s
    else afterBus (memWrite reg (toByte v) s) fun _ t => respondOk 0#32 t)

/-- READ12 (R107). -/
def execRead12 (reg : Byte) (s : State) : Outcome := .next (readPairCommand .w12 reg s)

/-- READ14 (R108). -/
def execRead14 (reg : Byte) (s : State) : Outcome := .next (readPairCommand .w14 reg s)

/-- WRITE12 (R109). -/
def execWrite12 (reg : Byte) (v : Half) (s : State) : Outcome := .next (writePairCommand .w12 (over12 v) reg v s)

/-- WRITE14 (R110): only the width is checked, not the sub-fields of CONF. -/
def execWrite14 (reg : Byte) (v : Half) (s : State) : Outcome := .next (writePairCommand .w14 (over14 v) reg v s)

/-- SETBF (R111): no transaction, no state written. -/
def execSetbf (shift : BitVec 4) (cur mask new : Half) (s : State) : Outcome :=
  .next (respondOk (zext32 (setBitfield cur mask shift.toNat new)) s)

/-- GETBF (R112): no transaction, no state written. -/
def execGetbf (shift : BitVec 4) (word mask : Half) (s : State) : Outcome :=
  .next (respondOk (zext32 (getBitfield word mask shift.toNat)) s)

end Sys2Proof.Machine
end

