-- ==== Sys2Proof/Machine/ConfigFields.lean ====
section
/-! DEFINITION. Configuration bitfields (`41_config_fields.md` R122 to R140). -/

namespace Sys2Proof.Machine

/-- `SetField(F, v)` (R123): validate, read the one byte that holds the field, write it back with the field replaced. -/
def setField (f : Field) (v : Half) (s : State) : State :=
  if fieldAccepts f v then
    afterBus (memRead (fieldReg s.params.layout f) s) fun b t =>
      afterBus (memWrite (fieldReg s.params.layout f) (insertField s.params.layout f b v) t) fun _ u => respondOk 0#32 u
  else raiseInvalidArgument s

/-- `GetField(F)` (R124): the field as read, unvalidated. -/
def getField (f : Field) (s : State) : State :=
  afterBus (memRead (fieldReg s.params.layout f) s) fun b t => respondOk (zext32 (extractField s.params.layout f b)) t

/-- SET_PM, the power mode setter (R125). -/
def execSetPm (v : Half) (s : State) : Outcome := .next (setField .pm v s)

/-- GET_PM, the power mode getter (R126). -/
def execGetPm (s : State) : Outcome := .next (getField .pm s)

/-- SET_HYST, the hysteresis setter (R127). -/
def execSetHyst (v : Half) (s : State) : Outcome := .next (setField .hyst v s)

/-- GET_HYST, the hysteresis getter (R128). -/
def execGetHyst (s : State) : Outcome := .next (getField .hyst s)

/-- SET_OUTS, the output mode setter (R129). -/
def execSetOuts (v : Half) (s : State) : Outcome := .next (setField .outs v s)

/-- GET_OUTS, the output mode getter (R130). -/
def execGetOuts (s : State) : Outcome := .next (getField .outs s)

/-- SET_PWMF, the PWM frequency setter (R131). -/
def execSetPwmf (v : Half) (s : State) : Outcome := .next (setField .pwmf v s)

/-- GET_PWMF, the PWM frequency getter (R132). -/
def execGetPwmf (s : State) : Outcome := .next (getField .pwmf s)

/-- SET_SF, the slow filter setter (R133). -/
def execSetSf (v : Half) (s : State) : Outcome := .next (setField .sf v s)

/-- GET_SF, the slow filter getter (R134). -/
def execGetSf (s : State) : Outcome := .next (getField .sf s)

/-- SET_FTH, the fast filter setter (R135). -/
def execSetFth (v : Half) (s : State) : Outcome := .next (setField .fth v s)

/-- GET_FTH, the fast filter getter (R136). -/
def execGetFth (s : State) : Outcome := .next (getField .fth s)

/-- SET_WD, the watchdog setter (R137). -/
def execSetWd (v : Half) (s : State) : Outcome := .next (setField .wd v s)

/-- GET_WD, the watchdog getter (R138). -/
def execGetWd (s : State) : Outcome := .next (getField .wd s)

/-- GET_CONF (R139): the 14-bit word of the pair at 0x07. -/
def execGetConf (s : State) : Outcome :=
  .next (afterBus (readPair .w14 0x07#8 s) fun v t => respondOk (zext32 v) t)

/-- SET_CONF (R140): every sub-field is checked; the pair is written without being read first. -/
def execSetConf (v : Half) (s : State) : Outcome :=
  .next (if over14 v || !confAccepts s.params.layout v then raiseInvalidArgument s
    else afterBus (writePair .w14 0x07#8 v s) fun _ t => respondOk 0#32 t)

end Sys2Proof.Machine
end

