-- ==== Sys2Proof/Machine/Handle.lean ====
section
/-! DEFINITION. Device Handle and addressable variant (`45_handle.md` R210 to R214). -/

namespace Sys2Proof.Machine

/-- PROBE (R210): `STATUS` is always OK; `RESULT[0]` says whether the transport answered 0. -/
def execProbe (s : State) : Outcome :=
  .next (respondOk (if (probeBus s).1 then 1#32 else 0#32) (probeBus s).2)

/-- GET_ADDRESS (R211). -/
def execGetAddress (s : State) : Outcome := .next (respondOk (s.addr.setWidth 32) s)

/-- SET_ADDRESS (R212): no transaction. A BASE block's decoder never yields it; its meaning there is R212's
'ILLEGAL_COMMAND for `VARIANT = BASE`'. -/
def execSetAddress (v : Half) (s : State) : Outcome :=
  .next (match s.params.variant with
    | .base => raiseIllegalCommand s
    | .addressable =>
      if outsideBusRange v then raiseInvalidArgument s else respondOk 0#32 { s with addr := toBusAddr v })

/-- GET_LAST_ERROR (R213): not cleared by the read. -/
def execGetLastError (s : State) : Outcome := .next (respondOk (zextByte s.lastErr) s)

end Sys2Proof.Machine
end

