-- ==== Sys2Proof/Machine/StatusDecoder.lean ====
section
/-! DEFINITION. Status Decoder (`44_status.md` R202 to R204). -/

namespace Sys2Proof.Machine

/-- READ_STATUS_FLAGS (R202): register 0x0B, decoded; the flags are not stored. -/
def execReadStatusFlags (s : State) : Outcome :=
  .next (afterBus (memRead 0x0B#8 s) fun b t => respondOk (flagsWord (decodeStatus t.params.statusMasks b)) t)

/-- READ_AGC (R203): register 0x1A. -/
def execReadAgc (s : State) : Outcome :=
  .next (afterBus (memRead 0x1A#8 s) fun b t => respondOk (zextByte b) t)

/-- READ_MAGNITUDE (R204): the pair at 0x1B. -/
def execReadMagnitude (s : State) : Outcome := .next (readFixedPair 0x1B#8 s)

end Sys2Proof.Machine
end

