-- ==== Sys2Proof/Machine/Dispatch.lean ====
section
/-! DEFINITION. One arm per command: each is one direct call of that command's own meaning. -/

namespace Sys2Proof.Machine

def exec (i : Instr) (s : State) : Host.Outcome State Fault Refusal :=
  match i with
  -- Register Codec primitives
  | .read8 reg => Sys2Proof.Machine.execRead8 reg s
  | .write8 reg v => Sys2Proof.Machine.execWrite8 reg v s
  | .read12 reg => Sys2Proof.Machine.execRead12 reg s
  | .read14 reg => Sys2Proof.Machine.execRead14 reg s
  | .write12 reg v => Sys2Proof.Machine.execWrite12 reg v s
  | .write14 reg v => Sys2Proof.Machine.execWrite14 reg v s
  | .setbf shift cur mask new => Sys2Proof.Machine.execSetbf shift cur mask new s
  | .getbf shift word mask => Sys2Proof.Machine.execGetbf shift word mask s
  -- configuration bitfields
  | .setPm v => Sys2Proof.Machine.execSetPm v s
  | .getPm => Sys2Proof.Machine.execGetPm s
  | .setHyst v => Sys2Proof.Machine.execSetHyst v s
  | .getHyst => Sys2Proof.Machine.execGetHyst s
  | .setOuts v => Sys2Proof.Machine.execSetOuts v s
  | .getOuts => Sys2Proof.Machine.execGetOuts s
  | .setPwmf v => Sys2Proof.Machine.execSetPwmf v s
  | .getPwmf => Sys2Proof.Machine.execGetPwmf s
  | .setSf v => Sys2Proof.Machine.execSetSf v s
  | .getSf => Sys2Proof.Machine.execGetSf s
  | .setFth v => Sys2Proof.Machine.execSetFth v s
  | .getFth => Sys2Proof.Machine.execGetFth s
  | .setWd v => Sys2Proof.Machine.execSetWd v s
  | .getWd => Sys2Proof.Machine.execGetWd s
  | .getConf => Sys2Proof.Machine.execGetConf s
  | .setConf v => Sys2Proof.Machine.execSetConf v s
  -- position registers
  | .getZmco => Sys2Proof.Machine.execGetZmco s
  | .getZpos => Sys2Proof.Machine.execGetZpos s
  | .setZpos v => Sys2Proof.Machine.execSetZpos v s
  | .getMpos => Sys2Proof.Machine.execGetMpos s
  | .setMpos v => Sys2Proof.Machine.execSetMpos v s
  | .getMang => Sys2Proof.Machine.execGetMang s
  | .setMang v => Sys2Proof.Machine.execSetMang v s
  -- Angle & Offset Engine and Velocity Estimator
  | .rawAngle => Sys2Proof.Machine.execRawAngle s
  | .angle => Sys2Proof.Machine.execAngle s
  | .effAngle => Sys2Proof.Machine.execEffAngle s
  | .setOffsetRaw v => Sys2Proof.Machine.execSetOffsetRaw v s
  | .getOffsetRaw => Sys2Proof.Machine.execGetOffsetRaw s
  | .setOffsetCdeg c => Sys2Proof.Machine.execSetOffsetCdeg c s
  | .getOffsetDeg => Sys2Proof.Machine.execGetOffsetDeg s
  | .toDeg v => Sys2Proof.Machine.execToDeg v s
  | .wrapDelta cur last => Sys2Proof.Machine.execWrapDelta cur last s
  | .speedSample now => Sys2Proof.Machine.execSpeedSample now s
  -- Status Decoder
  | .readStatusFlags => Sys2Proof.Machine.execReadStatusFlags s
  | .readAgc => Sys2Proof.Machine.execReadAgc s
  | .readMagnitude => Sys2Proof.Machine.execReadMagnitude s
  -- Device Handle
  | .probe => Sys2Proof.Machine.execProbe s
  | .getAddress => Sys2Proof.Machine.execGetAddress s
  | .setAddress v => Sys2Proof.Machine.execSetAddress v s
  | .getLastError => Sys2Proof.Machine.execGetLastError s

end Sys2Proof.Machine
end

