-- ==== Sys2Proof/Machine/Step.lean ====
section
/-! DEFINITION. One step: the block takes the command the host presents, decodes it and runs it to its response
(`10_state.md` R27, `20_memory.md` R59). With no command presented it waits (`70_reset_and_hazards.md` R246). -/

namespace Sys2Proof.Machine

/-- One command, or a wait. A word outside the opcode map is answered with ILLEGAL_COMMAND (R70, R223). -/
def step (s : State) : Host.Outcome State Fault Refusal :=
  match takeCommand s with
  | none => .next s
  | some (c, t) =>
    match decode s.params.variant c with
    | .instr i => exec i t
    | .illegal _ => .next (raiseIllegalCommand t)

/-- The host presents that word next: `CMD` its bits 31..0, `AUX` its bits 63..32. -/
def State.withFetchWord (s : State) (nbits w : Nat) : State := presentCommand (tableCommand nbits w) s

end Sys2Proof.Machine
end

