-- ==== Sys2Proof/Machine/Assembler.lean ====
section
/-! DEFINITION. The assembly syntax of `30_encoding.md` R76 and the operand checks of R77: a line is a mnemonic
followed by comma-separated operands, numbers are decimal or hexadecimal with `0x`. -/

namespace Sys2Proof.Machine

/-- An operand that fits an unsigned field of the given maximum (R77). -/
def fitsField (max : Nat) (x : Int) : Option Nat :=
  if 0 ≤ x ∧ x ≤ max then some x.toNat else none

/-- A signed 32-bit operand (R77), encoded as `c mod 2^32` (R76). -/
def fitsSigned (c : Int) : Option Word :=
  if -(2 ^ 31) ≤ c ∧ c ≤ 2 ^ 31 - 1 then some (BitVec.ofInt 32 c) else none

/-- The words of one row with the given numbers, in the operand order of R76; `none` where an operand does not fit
its field or the number of operands is wrong. -/
def assembleRow (r : OpcodeRow) (operands : List Int) : Option Command :=
  let word (a d : Nat) : Word := cmdWord (cmdOp r.pattern) (BitVec.ofNat 8 a) (BitVec.ofNat 16 d)
  match r.form, operands with
  | .bare, [] => some ⟨word 0 0, 0#32⟩
  | .reg, [x] => do
    let reg ← fitsField 0xFF x
    some ⟨word reg 0, 0#32⟩
  | .regValue, [x, y] => do
    let reg ← fitsField 0xFF x
    let v ← fitsField 0xFFFF y
    some ⟨word reg v, 0#32⟩
  | .value, [x] => do
    let v ← fitsField 0xFFFF x
    some ⟨word 0 v, 0#32⟩
  | .setBitfield, [x, y, z, w] => do
    let shift ← fitsField 15 x
    let cur ← fitsField 0xFFFF y
    let mask ← fitsField 0xFFFF z
    let new ← fitsField 0xFFFF w
    some ⟨word shift cur, auxPair (BitVec.ofNat 16 new) (BitVec.ofNat 16 mask)⟩
  | .getBitfield, [x, y, z] => do
    let shift ← fitsField 15 x
    let w ← fitsField 0xFFFF y
    let mask ← fitsField 0xFFFF z
    some ⟨word shift w, auxPair 0#16 (BitVec.ofNat 16 mask)⟩
  | .centidegrees, [x] => do
    let c ← fitsSigned x
    some ⟨word 0 0, c⟩
  | .curLast, [x, y] => do
    let cur ← fitsField 0xFFFF x
    let last ← fitsField 0xFFFFFFFF y
    some ⟨word 0 cur, BitVec.ofNat 32 last⟩
  | .timestamp, [x] => do
    let now ← fitsField 0xFFFFFFFF x
    some ⟨word 0 0, BitVec.ofNat 32 now⟩
  | _, _ => none

/-- A mnemonic and its numbers as a command (R76, R77). -/
def assemble (mnemonic : String) (operands : List Int) : Option Command :=
  match opcodeMap.find? fun r => r.mnemonic == mnemonic with
  | some r => assembleRow r operands
  | none => none

/-! ## Text -/

/-- The value of a decimal or hexadecimal digit. -/
def digitValue (c : Char) : Option Nat :=
  if '0' ≤ c ∧ c ≤ '9' then some (c.toNat - '0'.toNat)
  else if 'a' ≤ c ∧ c ≤ 'f' then some (c.toNat - 'a'.toNat + 10)
  else if 'A' ≤ c ∧ c ≤ 'F' then some (c.toNat - 'A'.toNat + 10)
  else none

/-- Digits in a base, most significant first. -/
def parseDigits (base : Nat) : Nat → List Char → Option Nat
  | acc, [] => some acc
  | acc, c :: cs =>
    match digitValue c with
    | some d => if d < base then parseDigits base (acc * base + d) cs else none
    | none => none

/-- A number: decimal, `-` and decimal, or hexadecimal with `0x` (R76). A minus sign before a decimal number only, and
hexadecimal digits of either case: DESIGN CHOICE (log 16). -/
def parseNumber : List Char → Option Int
  | [] => none
  | ['-'] => none
  | '-' :: cs => (parseDigits 10 0 cs).map fun n => -(n : Int)
  | ['0', 'x'] => none
  | '0' :: 'x' :: cs => (parseDigits 16 0 cs).map fun n => (n : Int)
  | cs => (parseDigits 10 0 cs).map fun n => (n : Int)

/-- The pieces between commas. -/
def splitCommas : List Char → List (List Char)
  | [] => [[]]
  | c :: cs =>
    match c == ',', splitCommas cs with
    | true, ws => [] :: ws
    | false, w :: ws => (c :: w) :: ws
    | false, [] => [[c]]

/-- Drop spaces at both ends. -/
def trimSpaces (cs : List Char) : List Char :=
  ((cs.dropWhile fun c => c == ' ').reverse.dropWhile fun c => c == ' ').reverse

/-- One line of assembly as a command (R76, R77). DESIGN CHOICE (log 16): every operand may be hexadecimal, `c` of
SET_OFFSET_CDEG too. R76 says both '`c` is a signed decimal' and 'Numbers are decimal, or hexadecimal with `0x`'. -/
def assembleLine (line : String) : Option Command :=
  let cs := trimSpaces line.toList
  let rest := trimSpaces (cs.dropWhile fun c => c != ' ')
  let numbers := if rest.isEmpty then some [] else (splitCommas rest).mapM fun w => parseNumber (trimSpaces w)
  match opcodeMap.find? fun r => r.mnemonic.toList == cs.takeWhile fun c => c != ' ', numbers with
  | some r, some ns => assembleRow r ns
  | _, _ => none

end Sys2Proof.Machine
end

