-- ==== Sys2Proof/Machine/HostScale.lean ====
section
/-! DEFINITION. What the HOST computes from the block's exact outputs (`43_angle_offset.md` R178, R182). The block
computes none of it (D23, D28). Angles in radians are given in units of π rad, since π has no exact value. -/

namespace Sys2Proof.Machine

/-- `TICK_SECONDS` (R8). -/
def tickSeconds (p : Params) : Rat := (p.tickNum : Rat) / (p.tickDen : Rat)

/-- `speed_deg(dr, dt)` (R182), in degrees per second. -/
def speedDeg (p : Params) (dr : Int) (dt : Nat) : Rat :=
  if dt = 0 then 0 else (dr : Rat) * (360 / 4096) / ((dt : Rat) * tickSeconds p)

/-- `speed_rad(dr, dt)` (R182), in units of π radians per second. -/
def speedPiRad (p : Params) (dr : Int) (dt : Nat) : Rat :=
  if dt = 0 then 0 else (dr : Rat) * (2 / 4096) / ((dt : Rat) * tickSeconds p)

/-- A raw value in units of π radians: `r * (π/2048)` (R178). -/
def rawPiRad (r : Nat) : Rat := (r : Rat) / 2048

end Sys2Proof.Machine
end

