-- ==== Sys2Proof/Safety.lean ====
section
/-! DEFINITION. What counts as a safe state and as safe bus traffic, in the terms the claims use. -/

namespace Sys2Proof.Machine

/-- The values `ADDR` may hold (`10_state.md` R21, R25). -/
def addrLegal (v : Variant) (a : BusAddr) : Bool :=
  match v with
  | .base => a == 0x36#7
  | .addressable => decide (0x08 ≤ a.toNat) && decide (a.toNat ≤ 0x77)

/-- The `lastTime` of `HIST` fits `TSW` bits (R23). -/
def histFits (p : Params) : Option Sample → Bool
  | none => true
  | some x => decide (x.lastTime.toNat < 2 ^ p.tsw)

/-- The register file, where there is one, is in canonical form. -/
def sensorWf : Sensor → Bool
  | .oracle => true
  | .regFile dev _ => dev.wf

/-- The invariants of R25, with the parameters in their domains (R8) and the canonical form of memory. -/
structure State.Inv (s : State) : Prop where
  params : s.params.wf = true
  addr : addrLegal s.params.variant s.addr = true
  hist : histFits s.params s.hist = true
  sensor : sensorWf s.sensor = true

/-- The status code a Transport call returned, if it is a transaction (`20_memory.md` R45): `Rd` is not one. -/
def eventStatus : Event → Option Byte
  | .sel _ _ code => some code
  | .req _ _ code => some code
  | .rd _ => none
  | .wr _ _ _ code => some code
  | .prb _ code => some code

/-- The status codes of a history's transactions, in issue order. -/
def statuses (h : List Event) : List Byte := h.filterMap eventStatus

/-- The status of the history's most recent transaction; 0 (success) before the first (R24). -/
def lastStatus (h : List Event) : Byte := (statuses h).getLastD 0#8

/-- The call goes to bus address `a` only and names no register 0xFF (R41, R56). -/
def callAllowed (a : BusAddr) : Event → Bool
  | .sel b reg _ => b == a && reg != 0xFF#8
  | .req b count _ => b == a && count == 1
  | .rd _ => true
  | .wr b reg _ _ => b == a && reg != 0xFF#8
  | .prb b _ => b == a

/-! ## What transactions leave, in closed form -/

/-- The next `n` transactions all answer success. -/
def Succeed (s : State) (n : Nat) : Prop := ∀ j, j < n → answerStatus s j = 0#8

/-- The transaction `k` ahead is the first that fails. -/
def FailsAt (s : State) (k : Nat) : Prop := Succeed s k ∧ answerStatus s k ≠ 0#8

/-- `s` after `n` transactions, the last of which answered `code`, with their Transport calls. Every other register
is as before. -/
def afterCalls (s : State) (n : Nat) (code : Byte) (calls : List Event) : State :=
  { s with
    lastErr := code
    answers := s.answers.drop n
    draws := s.draws + n
    history := s.history ++ calls }

/-- The calls of a `MemRead(reg, 1)` that succeeds, its select being the transaction `k` ahead (R47). -/
def byteReadCalls (s : State) (k : Nat) (reg : Byte) : List Event :=
  [.sel s.addr reg 0#8, .req s.addr 1 0#8, .rd (answerByte s (k + 1) reg)]

/-- The calls of a `MemRead(reg, 1)` whose transaction `j` fails: its select (`j = 0`) or its request (R47). -/
def byteFailCalls (s : State) (k : Nat) (reg : Byte) (j : Nat) : List Event :=
  if j = 0 then [.sel s.addr reg (answerStatus s k)]
  else [.sel s.addr reg 0#8, .req s.addr 1 (answerStatus s (k + 1))]

/-- The calls of a pair read that succeeds: `reg`, then `reg + 1` (R51, R100). -/
def pairReadCalls (s : State) (reg : Byte) : List Event :=
  byteReadCalls s 0 reg ++ byteReadCalls s 2 (reg + 1#8)

/-- The calls of a pair read whose transaction `k` (0 to 3) is the first that fails: nothing after it (D6, D7). -/
def pairFailCalls (s : State) (reg : Byte) (k : Nat) : List Event :=
  if k < 2 then byteFailCalls s 0 reg k
  else byteReadCalls s 0 reg ++ byteFailCalls s 2 (reg + 1#8) (k - 2)

/-- The response OK with `r` and nothing else changed. -/
def okWith (r : Word) (s : State) : State := { s with response := some ⟨.ok, r, 0#32⟩ }

/-- The response INVALID_ARGUMENT and nothing else changed (R221). -/
def invalidOf (s : State) : State := { s with response := some ⟨.invalidArgument, 0#32, 0#32⟩ }

/-- The response BUS_ERROR with its two draws (R35). -/
def busErrorOf (s : State) : State :=
  { s with
    draws := s.draws + 2
    response := some ⟨.busError, Config.drawWord s.draws, Config.drawWord (s.draws + 1)⟩ }

end Sys2Proof.Machine
end

