-- ==== Sys2Proof/Certificates/Slice0/Obligations.lean ====
section
/-! DEFINITION. The statements for the provers. A next state is written out as the state before with exactly the fields
the command changes, so each result statement is its own frame: every register, byte of the register file, parameter
and pending input not named is unchanged. `Succeed s n` and `FailsAt s k` say what the transport answers; `afterCalls`,
`byteReadCalls` and the other closed forms stand in `Sys2Proof/Safety.lean`. -/

namespace Sys2Proof.Claims

open Sys2Proof.Machine

/-- The seven field setters: SET_PM, SET_HYST, SET_OUTS, SET_PWMF, SET_SF, SET_FTH, SET_WD. -/
def setterOf : Field → Half → Instr
  | .pm, v => .setPm v
  | .hyst, v => .setHyst v
  | .outs, v => .setOuts v
  | .pwmf, v => .setPwmf v
  | .sf, v => .setSf v
  | .fth, v => .setFth v
  | .wd, v => .setWd v

/-- The seven field getters: GET_PM, GET_HYST, GET_OUTS, GET_PWMF, GET_SF, GET_FTH, GET_WD. -/
def getterOf : Field → Instr
  | .pm => .getPm
  | .hyst => .getHyst
  | .outs => .getOuts
  | .pwmf => .getPwmf
  | .sf => .getSf
  | .fth => .getFth
  | .wd => .getWd

/-- The opcodes of the field setters (R125, R127, R129, R131, R133, R135, R137). -/
def setterOpcode : Field → Byte
  | .pm => 0x10#8
  | .hyst => 0x12#8
  | .outs => 0x14#8
  | .pwmf => 0x16#8
  | .sf => 0x18#8
  | .fth => 0x1A#8
  | .wd => 0x1C#8

/-- The opcodes of the field getters (R126, R128, R130, R132, R134, R136, R138). -/
def getterOpcode : Field → Byte
  | .pm => 0x11#8
  | .hyst => 0x13#8
  | .outs => 0x15#8
  | .pwmf => 0x17#8
  | .sf => 0x19#8
  | .fth => 0x1B#8
  | .wd => 0x1D#8

/-- The 'Encoding' line of a command's rule: `OP`, `A` and `D` make `i`, on both variants, whatever the ignored `AUX`. -/
def ReadsAs (op a : Byte) (d : Half) (i : Instr) : Prop :=
  ∀ (variant : Variant) (aux : Word), decode variant ⟨cmdWord op a d, aux⟩ = .instr i

/-- An instruction's operands as numbers, in R76's operand order: `c` of SET_OFFSET_CDEG signed, all others unsigned. -/
def operandsOf : Instr → List Int
  | .read8 reg | .read12 reg | .read14 reg => [reg.toNat]
  | .write8 reg v | .write12 reg v | .write14 reg v => [reg.toNat, v.toNat]
  | .setbf shift cur mask new => [shift.toNat, cur.toNat, mask.toNat, new.toNat]
  | .getbf shift word mask => [shift.toNat, word.toNat, mask.toNat]
  | .setPm v | .setHyst v | .setOuts v | .setPwmf v | .setSf v | .setFth v | .setWd v => [v.toNat]
  | .setConf v | .setZpos v | .setMpos v | .setMang v => [v.toNat]
  | .setOffsetRaw v | .toDeg v | .setAddress v => [v.toNat]
  | .setOffsetCdeg c => [c.toInt]
  | .wrapDelta cur last => [cur.toNat, last.toNat]
  | .speedSample now => [now.toNat]
  | .getPm | .getHyst | .getOuts | .getPwmf | .getSf | .getFth | .getWd | .getConf => []
  | .getZmco | .getZpos | .getMpos | .getMang | .rawAngle | .angle | .effAngle => []
  | .getOffsetRaw | .getOffsetDeg | .readStatusFlags | .readAgc | .readMagnitude => []
  | .probe | .getAddress | .getLastError => []

/-- The three commands that read `OFFSET` (R22). -/
def readsOffset (i : Instr) : Prop := i = .effAngle ∨ i = .getOffsetRaw ∨ i = .getOffsetDeg

/-- The two offset setters (R22). -/
def setsOffset (i : Instr) : Prop := (∃ v, i = .setOffsetRaw v) ∨ ∃ c, i = .setOffsetCdeg c

/-- The reserved opcodes of R71. -/
def reservedOpcode (op : Nat) : Prop :=
  op = 0x00 ∨ (0x09 ≤ op ∧ op ≤ 0x0F) ∨ (0x27 ≤ op ∧ op ≤ 0x2F) ∨ (0x3A ≤ op ∧ op ≤ 0x3F) ∨
  (0x43 ≤ op ∧ op ≤ 0x4F) ∨ (0x54 ≤ op ∧ op ≤ 0xFF)

/-- The commands that take no register address in `A`, by the operand form of their row (R69). -/
def aReserved : OperandForm → Bool
  | .bare | .value | .centidegrees | .curLast | .timestamp => true
  | .reg | .regValue | .setBitfield | .getBitfield => false

/-- The commands that take no value in `D`, by the operand form of their row (R69). -/
def dReserved : OperandForm → Bool
  | .bare | .reg | .centidegrees | .timestamp => true
  | .value | .regValue | .setBitfield | .getBitfield | .curLast => false

/-- SETBF and GETBF, whose `A[7:4]` is reserved (R69). -/
def aHighReserved : OperandForm → Bool
  | .setBitfield | .getBitfield => true
  | .bare | .reg | .regValue | .value | .centidegrees | .curLast | .timestamp => false

/-- The state after one `MemWrite` that answered `code`. -/
def afterWrite (s : State) (n : Nat) (before : List Event) (reg b code : Byte) : State :=
  { afterCalls s n code (before ++ [.wr s.addr reg b code]) with sensor := sensorWrite s.sensor reg b code }

/-- The state after a pair write: `hi` to `reg` succeeded, then `lo` to `reg + 1` answered `code`. -/
def afterPairWrite (s : State) (reg hi lo code : Byte) : State :=
  { afterCalls s 2 code [.wr s.addr reg hi 0#8, .wr s.addr (reg + 1#8) lo code] with
    sensor := sensorWrite (sensorWrite s.sensor reg hi 0#8) (reg + 1#8) lo code }

/-- What a pair write of `v` at `reg` leaves, as R101 and D7 give it: both bytes written; the first write failed and no
second; the second failed and the first stays. `hi` and `lo` are the value's high and low byte as numbers. -/
def PairWriteEffect (i : Instr) (reg : Byte) (v : Half) (s : State) : Prop :=
  let hi := BitVec.ofNat 8 (v.toNat / 256)
  let lo := BitVec.ofNat 8 (v.toNat % 256)
  (Succeed s 2 → exec i s = .next (okWith 0#32 (afterPairWrite s reg hi lo 0#8))) ∧
  (FailsAt s 0 → exec i s = .next (busErrorOf (afterWrite s 1 [] reg hi (answerStatus s 0)))) ∧
  (FailsAt s 1 → exec i s = .next (busErrorOf (afterPairWrite s reg hi lo (answerStatus s 1))))

/-- The number a pair of `bits` bits holds (R51, R100): the high bits of the first byte discarded. -/
def pairNumber (bits : Nat) (hi lo : Byte) : Nat := hi.toNat % 2 ^ (bits - 8) * 256 + lo.toNat

/-- The number a pair read at `reg` returns if its four transactions succeed. -/
def pairRead (bits : Nat) (s : State) (reg : Byte) : Nat :=
  pairNumber bits (answerByte s 1 reg) (answerByte s 3 (reg + 1#8))

/-- What a pair read at `reg` leaves (R100): the result, or a BUS_ERROR at the first failing of its transactions. -/
def PairReadEffect (i : Instr) (reg : Byte) (result : Word) (s : State) : Prop :=
  (Succeed s 4 → exec i s = .next (okWith result (afterCalls s 4 0#8 (pairReadCalls s reg)))) ∧
  (∀ k, k < 4 → FailsAt s k →
    exec i s = .next (busErrorOf (afterCalls s (k + 1) (answerStatus s k) (pairFailCalls s reg k))))

/-- What a byte read at `reg` leaves (R47): the result, or a BUS_ERROR at the first failing of its two transactions. -/
def ByteReadEffect (i : Instr) (reg : Byte) (result : Word) (s : State) : Prop :=
  (Succeed s 2 → exec i s = .next (okWith result (afterCalls s 2 0#8 (byteReadCalls s 0 reg)))) ∧
  (∀ k, k < 2 → FailsAt s k →
    exec i s = .next (busErrorOf (afterCalls s (k + 1) (answerStatus s k) (byteFailCalls s 0 reg k))))

/-- The causes of INVALID_ARGUMENT, command by command (R221). -/
def invalidCause (p : Params) : Instr → Prop
  | .read8 reg => reg = 0xFF#8
  | .write8 reg v => reg = 0xFF#8 ∨ 0xFF < v.toNat
  | .read12 reg => 0xFE ≤ reg.toNat
  | .read14 reg => 0xFE ≤ reg.toNat
  | .write12 reg v => 0xFE ≤ reg.toNat ∨ 0x0FFF < v.toNat
  | .write14 reg v => 0xFE ≤ reg.toNat ∨ 0x3FFF < v.toNat
  | .setPm v => 4 ≤ v.toNat
  | .setHyst v => 4 ≤ v.toNat
  | .setOuts v => 3 ≤ v.toNat
  | .setPwmf v => 4 ≤ v.toNat
  | .setSf v => 4 ≤ v.toNat
  | .setFth v => 8 ≤ v.toNat
  | .setWd v => 2 ≤ v.toNat
  | .setConf v => 0x3FFF < v.toNat ∨
      ∃ f, fieldValidCount f ≤ v.toNat / 2 ^ fieldWordShift p.layout f % 2 ^ fieldWidth f
  | .setZpos v => 0x0FFF < v.toNat
  | .setMpos v => 0x0FFF < v.toNat
  | .setMang v => 0x0FFF < v.toNat
  | .setOffsetRaw v => 0x0FFF < v.toNat
  | .toDeg v => 0x0FFF < v.toNat
  | .setOffsetCdeg c => 36000 + p.offsetTolCdeg < c.toInt.natAbs
  | .wrapDelta cur last => 0x0FFF < cur.toNat ∨ 0x0FFF < last.toNat
  | .speedSample now => 2 ^ p.tsw ≤ now.toNat
  | .setAddress v => p.variant = .addressable ∧ (v.toNat < 0x08 ∨ 0x77 < v.toNat)
  | .setbf _ _ _ _ | .getbf _ _ _ => False
  | .getPm | .getHyst | .getOuts | .getPwmf | .getSf | .getFth | .getWd | .getConf => False
  | .getZmco | .getZpos | .getMpos | .getMang | .rawAngle | .angle | .effAngle => False
  | .getOffsetRaw | .getOffsetDeg | .readStatusFlags | .readAgc | .readMagnitude => False
  | .probe | .getAddress | .getLastError => False

/-- A run of SPEED_SAMPLE commands that all end OK with a non-zero `dt`: the states before and after, and the reported
`(dr, dt)` in order (R183). -/
inductive SampleRun : State → List (Word × Word) → State → Prop where
  | nil (s : State) : SampleRun s [] s
  | cons {s t u : State} {now dr dt : Word} {rest : List (Word × Word)} :
      exec (.speedSample now) s = .next t → t.response = some ⟨.ok, dr, dt⟩ → dt ≠ 0#32 →
      SampleRun t rest u → SampleRun s ((dr, dt) :: rest) u

end Sys2Proof.Claims

open Sys2Proof Sys2Proof.Machine Sys2Proof.Claims

/-! ## Encoding and the step (30_encoding.md) -/

/-- Words written out from R72's rows and R66's fields decode to the instructions they stand for. That a table word holds
`CMD` in bits 31..0 and `AUX` in bits 63..32, and that `decodeTableWord` takes the map of ADDRESSABLE, is the model's choice
(log 10): R66 keeps the two words apart and R52 gives no order. -/
def Obligations.OpcodeWordsDecode : Prop :=
  decodeTableWord 32 0x011A0000 = some (.read8 0x1A#8) ∧
  decodeTableWord 32 0x05010ABC = some (.write12 0x01#8 0x0ABC#16) ∧
  decodeTableWord 64 0x0002000307020003 = some (.setbf 2#4 0x0003#16 0x0003#16 0x0002#16) ∧
  decodeTableWord 32 0x14000002 = some (.setOuts 2#16) ∧
  decodeTableWord 32 0x24000FFF = some (.setMpos 0x0FFF#16) ∧
  decodeTableWord 64 0xFFFFDCD835000000 = some (.setOffsetCdeg 0xFFFFDCD8#32) ∧
  decodeTableWord 32 0x40000000 = some .readStatusFlags ∧
  decodeTableWord 32 0x52000041 = some (.setAddress 0x41#16) ∧
  decodeTableWord 32 0x03010001 = none ∧
  decodeTableWord 32 0x10010004 = none ∧
  decodeTableWord 32 0x07100000 = none ∧
  decodeTableWord 32 0x00000000 = none

/-- Decoding an encoded well-formed instruction gives it back, for every operand value and both variants. -/
def Obligations.DecodeInvertsEncode : Prop :=
  ∀ (variant : Variant) (i : Instr), i.wf variant = true → decode variant (encode i) = .instr i

/-- R70: the decoder is the loop over the opcode map's rows; each row fixes `OP` to a different value, so no word matches
two rows; the map of BASE has no SET_ADDRESS. -/
def Obligations.DecodeFollowsOpcodeMap : Prop :=
  (∀ (variant : Variant) (c : Command),
    match decode variant c with
    | .instr i => ∃ r, matchingRow variant c.cmd = some r ∧ r.mnemonic = mnemonicOf i
    | .illegal _ => matchingRow variant c.cmd = none) ∧
  (∀ (cmd : Word) (r q : OpcodeRow), r ∈ opcodeMap → q ∈ opcodeMap →
    rowMatches r cmd = true → rowMatches q cmd = true → r = q) ∧
  (∀ r q : OpcodeRow, r ∈ opcodeMap → q ∈ opcodeMap → cmdOp r.pattern = cmdOp q.pattern → r = q) ∧
  (∀ r ∈ variantRows .base, r.mnemonic ≠ "SET_ADDRESS")

/-- A word that decodes to `i` is `i`'s own encoding, and `i` has a row in the variant's map. -/
def Obligations.DecodedWordIsEncoded : Prop :=
  ∀ (variant : Variant) (c : Command) (i : Instr),
    decode variant c = .instr i → i.wf variant = true ∧ (encode i).cmd = c.cmd

/-- R71: the reserved opcodes are those no row has, and a command with one answers ILLEGAL_COMMAND. -/
def Obligations.ReservedOpcodesAnswerIllegal : Prop :=
  (∀ op : Byte, reservedOpcode op.toNat ↔ ∀ r ∈ opcodeMap, cmdOp r.pattern ≠ op) ∧
  (∀ (s : State) (c : Command) (rest : List Command),
    s.commands = c :: rest → reservedOpcode (cmdOp c.cmd).toNat →
    step s = .next { s with commands := rest, response := some ⟨.illegalCommand, 0#32, 0#32⟩ })

/-- R69: a non-zero reserved field of an assigned opcode answers ILLEGAL_COMMAND; `AUX` bits a command does not use are
ignored. -/
def Obligations.ReservedFieldsAnswerIllegal : Prop :=
  (∀ (s : State) (c : Command) (rest : List Command) (r : OpcodeRow),
    s.commands = c :: rest → r ∈ opcodeMap → cmdOp c.cmd = cmdOp r.pattern →
    ((aReserved r.form = true ∧ cmdA c.cmd ≠ 0#8) ∨ (dReserved r.form = true ∧ cmdD c.cmd ≠ 0#16) ∨
      (aHighReserved r.form = true ∧ aHigh (cmdA c.cmd) ≠ 0#4)) →
    step s = .next { s with commands := rest, response := some ⟨.illegalCommand, 0#32, 0#32⟩ }) ∧
  (∀ (variant : Variant) (cmd aux aux' : Word),
    (cmdOp cmd ∉ [0x07#8, 0x08#8, 0x35#8, 0x38#8, 0x39#8] ∨ (cmdOp cmd = 0x08#8 ∧ auxLow aux = auxLow aux')) →
    decode variant ⟨cmd, aux⟩ = decode variant ⟨cmd, aux'⟩)

/-- A step takes the command presented next and runs what it decodes to; a word outside the map is answered with
ILLEGAL_COMMAND (R223); with no command presented the block waits (R246). -/
def Obligations.StepRunsDecodedInstruction : Prop :=
  (∀ s : State, s.commands = [] → step s = .next s) ∧
  (∀ (s : State) (c : Command) (rest : List Command) (i : Instr), s.commands = c :: rest →
    decode s.params.variant c = .instr i → step s = exec i { s with commands := rest }) ∧
  (∀ (s : State) (c : Command) (rest : List Command) (why : Illegal), s.commands = c :: rest →
    decode s.params.variant c = .illegal why →
    step s = .next { s with commands := rest, response := some ⟨.illegalCommand, 0#32, 0#32⟩ })

/-- R74: the coding of `STATUS`. -/
def Obligations.ResponseStatusCodes : Prop :=
  statusCode .ok = 0b00#2 ∧ statusCode .invalidArgument = 0b01#2 ∧ statusCode .busError = 0b10#2 ∧
  statusCode .illegalCommand = 0b11#2

/-- What the assembler accepts is the encoding of the instruction of that mnemonic with exactly the given numbers in R76's
operand places, and it decodes to that instruction; every instruction is assembled so from its own numbers (R76, R77). The
bound of `last` and `now` is the model's choice (log 16). -/
def Obligations.AssembledLinesDecode : Prop :=
  (∀ (name : String) (operands : List Int) (c : Command), assemble name operands = some c →
    ∃ i, c = encode i ∧ decode .addressable c = .instr i ∧ mnemonicOf i = name ∧ operandsOf i = operands) ∧
  (∀ i : Instr, assemble (mnemonicOf i) (operandsOf i) = some (encode i))

/-! ## Transport Port (20_memory.md) -/

/-- R47: a byte read selects, then requests, and stops at the first failure. -/
def Obligations.ByteReadFollowsCallSequence : Prop :=
  ∀ (reg : Byte) (s : State),
    (Succeed s 2 → memRead reg s = .done (answerByte s 1 reg)
      (afterCalls s 2 0#8 [.sel s.addr reg 0#8, .req s.addr 1 0#8, .rd (answerByte s 1 reg)])) ∧
    (FailsAt s 0 → memRead reg s = .failed
      (afterCalls s 1 (answerStatus s 0) [.sel s.addr reg (answerStatus s 0)])) ∧
    (FailsAt s 1 → memRead reg s = .failed
      (afterCalls s 2 (answerStatus s 1) [.sel s.addr reg 0#8, .req s.addr 1 (answerStatus s 1)]))

/-- R48: a byte write is one transaction. -/
def Obligations.ByteWriteFollowsCallSequence : Prop :=
  ∀ (reg b : Byte) (s : State),
    (Succeed s 1 → memWrite reg b s = .done () (afterWrite s 1 [] reg b 0#8)) ∧
    (FailsAt s 0 → memWrite reg b s = .failed (afterWrite s 1 [] reg b (answerStatus s 0)))

/-- Under the register-file oracle (R64) with nothing overridden, a byte written reads back, and every other register
reads as before. -/
def Obligations.RegisterFileReadAfterWrite : Prop :=
  ∀ (s : State) (dev : Memory) (lands : Bool) (reg reg' : Byte) (v : Half),
    s.sensor = .regFile dev lands → dev.wf = true → s.answers = [] →
    reg ≠ 0xFF#8 → reg' ≠ 0xFF#8 → v.toNat ≤ 0xFF →
    ∃ t u, exec (.write8 reg v) s = .next t ∧ exec (.read8 reg') t = .next u ∧
      u.response = some ⟨.ok, if reg' = reg then v.setWidth 32 else (dev.read reg'.toNat).setWidth 32, 0#32⟩

/-! ## Register Codec primitives (40_codec_primitives.md) -/

/-- R105: READ8. -/
def Obligations.Read8ReturnsByte : Prop :=
  ∀ (reg : Byte) (s : State),
    ReadsAs 0x01#8 reg 0#16 (.read8 reg) ∧
    (reg = 0xFF#8 → exec (.read8 reg) s = .next (invalidOf s)) ∧
    (reg ≠ 0xFF#8 → ByteReadEffect (.read8 reg) reg ((answerByte s 1 reg).setWidth 32) s)

/-- R106: WRITE8. -/
def Obligations.Write8SendsByte : Prop :=
  ∀ (reg : Byte) (v : Half) (s : State),
    ReadsAs 0x02#8 reg v (.write8 reg v) ∧
    (reg = 0xFF#8 ∨ 0xFF < v.toNat → exec (.write8 reg v) s = .next (invalidOf s)) ∧
    (reg ≠ 0xFF#8 → v.toNat ≤ 0xFF →
      (Succeed s 1 → exec (.write8 reg v) s =
        .next (okWith 0#32 (afterWrite s 1 [] reg (BitVec.ofNat 8 v.toNat) 0#8))) ∧
      (FailsAt s 0 → exec (.write8 reg v) s =
        .next (busErrorOf (afterWrite s 1 [] reg (BitVec.ofNat 8 v.toNat) (answerStatus s 0)))))

/-- R107, R108: READ12 and READ14. -/
def Obligations.PairReadsAssembleBigEndian : Prop :=
  ∀ (reg : Byte) (s : State),
    ReadsAs 0x03#8 reg 0#16 (.read12 reg) ∧ ReadsAs 0x04#8 reg 0#16 (.read14 reg) ∧
    (0xFE ≤ reg.toNat →
      exec (.read12 reg) s = .next (invalidOf s) ∧ exec (.read14 reg) s = .next (invalidOf s)) ∧
    (reg.toNat < 0xFE →
      PairReadEffect (.read12 reg) reg (BitVec.ofNat 32 (pairRead 12 s reg)) s ∧
      PairReadEffect (.read14 reg) reg (BitVec.ofNat 32 (pairRead 14 s reg)) s)

/-- R109, R110: WRITE12 and WRITE14. -/
def Obligations.PairWritesSplitBigEndian : Prop :=
  ∀ (reg : Byte) (v : Half) (s : State),
    ReadsAs 0x05#8 reg v (.write12 reg v) ∧ ReadsAs 0x06#8 reg v (.write14 reg v) ∧
    (0xFE ≤ reg.toNat ∨ 0x0FFF < v.toNat → exec (.write12 reg v) s = .next (invalidOf s)) ∧
    (0xFE ≤ reg.toNat ∨ 0x3FFF < v.toNat → exec (.write14 reg v) s = .next (invalidOf s)) ∧
    (reg.toNat < 0xFE → v.toNat ≤ 0x0FFF → PairWriteEffect (.write12 reg v) reg v s) ∧
    (reg.toNat < 0xFE → v.toNat ≤ 0x3FFF → PairWriteEffect (.write14 reg v) reg v s)

/-- R102, R111: SETBF keeps every bit of `cur` outside the field and takes the field's bits from `new`. -/
def Obligations.SetbfInsertsField : Prop :=
  ∀ (shift : BitVec 4) (cur mask new : Half) (s : State),
    (∀ variant, decode variant ⟨cmdWord 0x07#8 (0#4 ++ shift) cur, new ++ mask⟩ = .instr (.setbf shift cur mask new)) ∧
    ∃ w : Half, exec (.setbf shift cur mask new) s = .next (okWith (w.setWidth 32) s) ∧
      ∀ k, k < 16 → w.getLsbD k =
        if shift.toNat ≤ k ∧ mask.getLsbD (k - shift.toNat) = true then new.getLsbD (k - shift.toNat)
        else cur.getLsbD k

/-- R112: GETBF extracts a field by R103's formula. -/
def Obligations.GetbfExtractsField : Prop :=
  ∀ (shift : BitVec 4) (word mask : Half) (s : State),
    (∀ variant (ignored : Half),
      decode variant ⟨cmdWord 0x08#8 (0#4 ++ shift) word, ignored ++ mask⟩ = .instr (.getbf shift word mask)) ∧
    ∃ w : Half, exec (.getbf shift word mask) s = .next (okWith (w.setWidth 32) s) ∧
      ∀ k, k < 16 → w.getLsbD k = (word.getLsbD (k + shift.toNat) && mask.getLsbD k)

/-- Extracting what SETBF inserted gives it back, where the shifted mask fits 16 bits. The spec marks it as its own inference
(`40_codec_primitives.md`, R103: '`GetBitfield(SetBitfield(cur, mask, shift, new), mask, shift) = new & mask` [derived: from
rule R102 and this rule]'). -/
def Obligations.GetbfInvertsSetbf : Prop :=
  ∀ (shift : BitVec 4) (cur mask new : Half), mask.toNat * 2 ^ shift.toNat < 2 ^ 16 →
    getBitfield (setBitfield cur mask shift.toNat new) mask shift.toNat = new &&& mask

/-! ## Configuration bitfields (41_config_fields.md) -/

/-- R122, R123: the seven field setters, for every layout: an accepted value lies within the field's mask. The byte written
differs from the byte read in the field's bits only, which are the operand's. -/
def Obligations.FieldSettersReadModifyWrite : Prop :=
  ∀ (f : Field) (v : Half) (s : State),
    ReadsAs (setterOpcode f) 0#8 v (setterOf f v) ∧
    (v.toNat < fieldValidCount f → v &&& fieldMask f = v) ∧
    (fieldValidCount f ≤ v.toNat → exec (setterOf f v) s = .next (invalidOf s)) ∧
    (v.toNat < fieldValidCount f →
      ∃ b' : Byte,
        (∀ k, k < 8 → b'.getLsbD k =
          if fieldShift s.params.layout f ≤ k ∧ k < fieldShift s.params.layout f + fieldWidth f then
            v.getLsbD (k - fieldShift s.params.layout f)
          else (answerByte s 1 (fieldReg s.params.layout f)).getLsbD k) ∧
        (Succeed s 3 → exec (setterOf f v) s = .next (okWith 0#32
          (afterWrite s 3 (byteReadCalls s 0 (fieldReg s.params.layout f)) (fieldReg s.params.layout f) b' 0#8))) ∧
        (∀ k, k < 2 → FailsAt s k → exec (setterOf f v) s = .next (busErrorOf
          (afterCalls s (k + 1) (answerStatus s k) (byteFailCalls s 0 (fieldReg s.params.layout f) k)))) ∧
        (FailsAt s 2 → exec (setterOf f v) s = .next (busErrorOf
          (afterWrite s 3 (byteReadCalls s 0 (fieldReg s.params.layout f)) (fieldReg s.params.layout f) b'
            (answerStatus s 2)))))

/-- R124: the seven field getters return the field as read, unvalidated. -/
def Obligations.FieldGettersReturnField : Prop :=
  ∀ (f : Field) (s : State),
    ReadsAs (getterOpcode f) 0#8 0#16 (getterOf f) ∧
    ByteReadEffect (getterOf f) (fieldReg s.params.layout f)
      (BitVec.ofNat 32 ((answerByte s 1 (fieldReg s.params.layout f)).toNat / 2 ^ fieldShift s.params.layout f %
        2 ^ fieldWidth f)) s

/-- Under the register-file oracle, a setter that ends OK changes no other field. The spec marks this law of
`41_config_fields.md` as its own inference: 'The preservation law. Let the sensor behave as the register-file oracle'. -/
def Obligations.SettersPreserveOtherFields : Prop :=
  ∀ (f g : Field) (v : Half) (s t : State) (dev : Memory) (lands : Bool) (r : Word),
    f ≠ g → s.params.layout.wf = true → s.sensor = .regFile dev lands → dev.wf = true → s.answers = [] →
    exec (setterOf f v) s = .next t → t.response = some ⟨.ok, r, 0#32⟩ →
    ∃ (value : Word) (before after : State),
      exec (getterOf g) s = .next before ∧ before.response = some ⟨.ok, value, 0#32⟩ ∧
      exec (getterOf g) t = .next after ∧ after.response = some ⟨.ok, value, 0#32⟩

/-- R139, R140: GET_CONF reads the 14-bit word; SET_CONF writes it after checking every sub-field. -/
def Obligations.ConfWordAccess : Prop :=
  ∀ (v : Half) (s : State),
    ReadsAs 0x1E#8 0#8 0#16 .getConf ∧ ReadsAs 0x1F#8 0#8 v (.setConf v) ∧
    PairReadEffect .getConf 0x07#8 (BitVec.ofNat 32 (pairRead 14 s 0x07#8)) s ∧
    (0x3FFF < v.toNat ∨ (∃ f, fieldValidCount f ≤
        v.toNat / 2 ^ fieldWordShift s.params.layout f % 2 ^ fieldWidth f) →
      exec (.setConf v) s = .next (invalidOf s)) ∧
    (v.toNat ≤ 0x3FFF → (∀ f, v.toNat / 2 ^ fieldWordShift s.params.layout f % 2 ^ fieldWidth f < fieldValidCount f) →
      PairWriteEffect (.setConf v) 0x07#8 v s)

/-- With the default layout, which the spec takes from general knowledge (log 3), only output mode 3 makes SET_CONF reject
a 14-bit word: R140's own remark on the default. -/
def Obligations.DefaultLayoutRejectsOutputModeThree : Prop :=
  ∀ (v : Half) (s : State), s.params.layout = defaultLayout → v.toNat ≤ 0x3FFF →
    (v.toNat / 16 % 4 = 3 → exec (.setConf v) s = .next (invalidOf s)) ∧
    (v.toNat / 16 % 4 ≠ 3 → PairWriteEffect (.setConf v) 0x07#8 v s)

/-! ## Position registers (42_position_registers.md), angle reads, AGC, magnitude -/

/-- R150, R203: GET_ZMCO and READ_AGC return all 8 bits of their register. -/
def Obligations.ByteRegistersPassThrough : Prop :=
  ∀ s : State,
    ReadsAs 0x20#8 0#8 0#16 .getZmco ∧ ReadsAs 0x41#8 0#8 0#16 .readAgc ∧
    ByteReadEffect .getZmco 0x00#8 (BitVec.ofNat 32 (answerByte s 1 0x00#8).toNat) s ∧
    ByteReadEffect .readAgc 0x1A#8 (BitVec.ofNat 32 (answerByte s 1 0x1A#8).toNat) s

/-- R151, R153, R155: the 12-bit getters assemble big-endian. -/
def Obligations.PositionGettersReadPairs : Prop :=
  ∀ s : State,
    ReadsAs 0x21#8 0#8 0#16 .getZpos ∧ ReadsAs 0x23#8 0#8 0#16 .getMpos ∧ ReadsAs 0x25#8 0#8 0#16 .getMang ∧
    PairReadEffect .getZpos 0x01#8 (BitVec.ofNat 32 (pairRead 12 s 0x01#8)) s ∧
    PairReadEffect .getMpos 0x03#8 (BitVec.ofNat 32 (pairRead 12 s 0x03#8)) s ∧
    PairReadEffect .getMang 0x05#8 (BitVec.ofNat 32 (pairRead 12 s 0x05#8)) s

/-- R152, R154, R156: the 12-bit setters. -/
def Obligations.PositionSettersWritePairs : Prop :=
  ∀ (v : Half) (s : State),
    ReadsAs 0x22#8 0#8 v (.setZpos v) ∧ ReadsAs 0x24#8 0#8 v (.setMpos v) ∧ ReadsAs 0x26#8 0#8 v (.setMang v) ∧
    (0x0FFF < v.toNat →
      exec (.setZpos v) s = .next (invalidOf s) ∧ exec (.setMpos v) s = .next (invalidOf s) ∧
      exec (.setMang v) s = .next (invalidOf s)) ∧
    (v.toNat ≤ 0x0FFF →
      PairWriteEffect (.setZpos v) 0x01#8 v s ∧ PairWriteEffect (.setMpos v) 0x03#8 v s ∧
      PairWriteEffect (.setMang v) 0x05#8 v s)

/-- R166, R167, R204: RAW_ANGLE, ANGLE and READ_MAGNITUDE return their pair; the offset plays no part. -/
def Obligations.AngleReadsIgnoreOffset : Prop :=
  ∀ s : State,
    ReadsAs 0x30#8 0#8 0#16 .rawAngle ∧ ReadsAs 0x31#8 0#8 0#16 .angle ∧ ReadsAs 0x42#8 0#8 0#16 .readMagnitude ∧
    PairReadEffect .rawAngle 0x0C#8 (BitVec.ofNat 32 (pairRead 12 s 0x0C#8)) s ∧
    PairReadEffect .angle 0x0E#8 (BitVec.ofNat 32 (pairRead 12 s 0x0E#8)) s ∧
    PairReadEffect .readMagnitude 0x1B#8 (BitVec.ofNat 32 (pairRead 12 s 0x1B#8)) s

/-! ## Angle, offset and wraparound (43_angle_offset.md) -/

/-- R168, R169: EFF_ANGLE is the raw angle plus the offset, mod 4096. -/
def Obligations.EffectiveAngleAddsOffset : Prop :=
  ∀ s : State,
    ReadsAs 0x32#8 0#8 0#16 .effAngle ∧
    PairReadEffect .effAngle 0x0C#8 (BitVec.ofNat 32 ((pairRead 12 s 0x0C#8 + s.offset.toNat) % 4096)) s

/-- R170, R171: the raw offset is set and read directly. -/
def Obligations.RawOffsetAccess : Prop :=
  ∀ (v : Half) (s : State),
    ReadsAs 0x33#8 0#8 v (.setOffsetRaw v) ∧ ReadsAs 0x34#8 0#8 0#16 .getOffsetRaw ∧
    (0x0FFF < v.toNat → exec (.setOffsetRaw v) s = .next (invalidOf s)) ∧
    (v.toNat ≤ 0x0FFF → exec (.setOffsetRaw v) s = .next (okWith 0#32 { s with offset := BitVec.ofNat 12 v.toNat })) ∧
    exec .getOffsetRaw s = .next (okWith (BitVec.ofNat 32 s.offset.toNat) s)

/-- R172, R173, R174: SET_OFFSET_CDEG rejects exactly what exceeds the bound, and otherwise sets the offset to the
nearest raw unit, mod 4096; the nearest is strict, so no tie occurs. -/
def Obligations.CentidegreeOffsetIsNearest : Prop :=
  ∀ (c : Word) (s : State),
    (∀ variant, decode variant ⟨cmdWord 0x35#8 0#8 0#16, c⟩ = .instr (.setOffsetCdeg c)) ∧
    (36000 + s.params.offsetTolCdeg < c.toInt.natAbs → exec (.setOffsetCdeg c) s = .next (invalidOf s)) ∧
    (c.toInt.natAbs ≤ 36000 + s.params.offsetTolCdeg →
      ∃ k : Int, 2 * (1125 * k - 128 * c.toInt).natAbs < 1125 ∧
        exec (.setOffsetCdeg c) s = .next (okWith 0#32 { s with offset := BitVec.ofInt 12 k }))

/-- The offset read back by GET_OFFSET_DEG is the one set, modulo 360 degrees, within 180/4096 degrees. The spec marks it
as its own inference (`43_angle_offset.md`, 'Offset round-trip. For every accepted `c`'). The numbers are scaled by 51200: `RESULT / 512` and `c / 100` degrees. -/
def Obligations.OffsetRoundTripsModuloTurn : Prop :=
  ∀ (c : Word) (s : State), c.toInt.natAbs ≤ 36000 + s.params.offsetTolCdeg →
    ∃ (t u : State) (r : Word) (turns : Int),
      exec (.setOffsetCdeg c) s = .next t ∧ exec .getOffsetDeg t = .next u ∧ u.response = some ⟨.ok, r, 0#32⟩ ∧
      (100 * (r.toNat : Int) - 512 * c.toInt - 51200 * 360 * turns).natAbs * 4096 ≤ 51200 * 180

/-- R175, R177: degrees in units of 1/512 are 45 times the raw value. -/
def Obligations.DegreeOutputsAreExact : Prop :=
  ∀ (v : Half) (s : State),
    ReadsAs 0x36#8 0#8 0#16 .getOffsetDeg ∧ ReadsAs 0x37#8 0#8 v (.toDeg v) ∧
    exec .getOffsetDeg s = .next (okWith (BitVec.ofNat 32 (s.offset.toNat * 45)) s) ∧
    (0x0FFF < v.toNat → exec (.toDeg v) s = .next (invalidOf s)) ∧
    (v.toNat ≤ 0x0FFF → exec (.toDeg v) s = .next (okWith (BitVec.ofNat 32 (v.toNat * 45)) s))

/-- R179, R180: WRAP_DELTA computes R179's pseudocode: the shortest signed path, within a half turn, a half turn with the
sign of the plain difference. -/
def Obligations.WrapDeltaIsShortestPath : Prop :=
  ∀ (cur : Half) (last : Word) (s : State),
    (∀ variant, decode variant ⟨cmdWord 0x38#8 0#8 cur, last⟩ = .instr (.wrapDelta cur last)) ∧
    (0x0FFF < cur.toNat ∨ 0x0FFF < last.toNat → exec (.wrapDelta cur last) s = .next (invalidOf s)) ∧
    (cur.toNat ≤ 0x0FFF → last.toNat ≤ 0x0FFF →
      ∃ r : Word, exec (.wrapDelta cur last) s = .next (okWith r s) ∧
        r.toInt = (if (cur.toNat : Int) - last.toNat > 2048 then (cur.toNat : Int) - last.toNat - 4096
          else if (cur.toNat : Int) - last.toNat < -2048 then (cur.toNat : Int) - last.toNat + 4096
          else (cur.toNat : Int) - last.toNat) ∧
        -2048 ≤ r.toInt ∧ r.toInt ≤ 2048 ∧
        ((cur.toNat : Int) - last.toNat = 2048 → r.toInt = 2048) ∧
        ((cur.toNat : Int) - last.toNat = -2048 → r.toInt = -2048) ∧
        (r.toInt = 2048 → (cur.toNat : Int) - last.toNat = 2048) ∧
        (r.toInt = -2048 → (cur.toNat : Int) - last.toNat = -2048))

/-- The reported delta is congruent to the plain difference mod 4096. The spec marks it as its own inference
(`43_angle_offset.md`, R179: 'Always `WrapDelta(cur, last) ≡ cur - last (mod 4096)` [derived: from this rule]'). -/
def Obligations.WrapDeltaIsCongruent : Prop :=
  ∀ (cur : Half) (last : Word) (s : State), cur.toNat ≤ 0x0FFF → last.toNat ≤ 0x0FFF →
    ∃ r : Word, exec (.wrapDelta cur last) s = .next (okWith r s) ∧
      (r.toInt - ((cur.toNat : Int) - last.toNat)) % 4096 = 0

/-- The reported delta is the true rotation `m` when `m` is less than half a turn; where it is not, it differs by a
non-zero multiple of 4096; and it is never a rotation of more than half a turn. The spec marks it as its own inference
(`43_angle_offset.md`, 'The delta is correct only for small rotations'). -/
def Obligations.SmallRotationsAreExact : Prop :=
  ∀ (cur : Half) (last : Word) (s : State) (m : Int), cur.toNat ≤ 0x0FFF → last.toNat ≤ 0x0FFF →
    ((last.toNat : Int) + m) % 4096 = cur.toNat →
    ∃ r : Word, exec (.wrapDelta cur last) s = .next (okWith r s) ∧
      (-2048 < m → m < 2048 → r.toInt = m) ∧
      (r.toInt = m → -2048 ≤ m ∧ m ≤ 2048) ∧
      (r.toInt ≠ m → ∃ k : Int, k ≠ 0 ∧ r.toInt = m + 4096 * k)

/-- R181: SPEED_SAMPLE. `raw` is the raw angle read, `dt` the time difference mod 2^TSW. -/
def Obligations.SpeedSampleMeasuresAndRecords : Prop :=
  ∀ (now : Word) (s : State),
    (∀ variant, decode variant ⟨cmdWord 0x39#8 0#8 0#16, now⟩ = .instr (.speedSample now)) ∧
    (2 ^ s.params.tsw ≤ now.toNat → exec (.speedSample now) s = .next (invalidOf s)) ∧
    (now.toNat < 2 ^ s.params.tsw →
      (∀ k, k < 4 → FailsAt s k → ∃ drawn : Angle, exec (.speedSample now) s = .next (busErrorOf
        { afterCalls s (k + 1) (answerStatus s k) (pairFailCalls s 0x0C#8 k) with
          hist := some ⟨drawn, now⟩, draws := s.draws + (k + 1) + 1 })) ∧
      (Succeed s 4 →
        ∃ dr dt : Word,
          exec (.speedSample now) s = .next
            { afterCalls s 4 0#8 (pairReadCalls s 0x0C#8) with
              hist := some ⟨BitVec.ofNat 12 (pairRead 12 s 0x0C#8), now⟩
              response := some ⟨.ok, dr, dt⟩ } ∧
          (s.hist = none → dr = 0#32 ∧ dt = 0#32) ∧
          (∀ la lt, s.hist = some ⟨la, lt⟩ →
            (((now.toNat : Int) - lt.toNat) % 2 ^ s.params.tsw = 0 → dr = 0#32 ∧ dt = 0#32) ∧
            (((now.toNat : Int) - lt.toNat) % 2 ^ s.params.tsw ≠ 0 →
              dr = BitVec.ofInt 32 (wrapDelta (pairRead 12 s 0x0C#8) la.toNat) ∧
              dt = BitVec.ofInt 32 (((now.toNat : Int) - lt.toNat) % 2 ^ s.params.tsw)))))

/-- Over a run of samples with every `dt` non-zero, the reported `dt` sum to the elapsed time mod 2^TSW and the
reported `dr` to the elapsed angle mod 4096. The spec marks it as its own inference (`43_angle_offset.md`, 'Telescoping. Take a run of
SPEED_SAMPLE commands that all end OK'). -/
def Obligations.SpeedSamplesTelescope : Prop :=
  ∀ (s t : State) (reports : List (Word × Word)) (first : Sample),
    s.params.wf = true → s.hist = some first → SampleRun s reports t →
    ∃ last : Sample, t.hist = some last ∧
      ((reports.map fun x => (x.2.toNat : Int)).sum - ((last.lastTime.toNat : Int) - first.lastTime.toNat)) %
        2 ^ s.params.tsw = 0 ∧
      ((reports.map fun x => x.1.toInt).sum - ((last.lastAngle.toNat : Int) - first.lastAngle.toNat)) % 4096 = 0

/-- R182, R178: the host's speed is the reported delta at 360/4096 degrees (2/4096 π rad) over the elapsed seconds, 0 for
`dt = 0`, with the sign of the delta; a raw value's radians and its exact degrees are the same angle. Angles in radians are
in units of π rad: the model's choice (log 17). -/
def Obligations.HostScalesAgree : Prop :=
  (∀ (p : Params) (dr : Int) (dt : Nat), p.wf = true →
    (dt = 0 → speedDeg p dr dt = 0 ∧ speedPiRad p dr dt = 0) ∧
    (dt ≠ 0 →
      speedDeg p dr dt * ((dt : Rat) * (p.tickNum : Rat) / (p.tickDen : Rat)) = (dr : Rat) * 360 / 4096 ∧
      speedPiRad p dr dt * ((dt : Rat) * (p.tickNum : Rat) / (p.tickDen : Rat)) = (dr : Rat) * 2 / 4096 ∧
      (0 < speedDeg p dr dt ↔ 0 < dr) ∧ (speedDeg p dr dt < 0 ↔ dr < 0)) ∧
    speedPiRad p dr dt * 180 = speedDeg p dr dt) ∧
  (∀ r : Nat, r ≤ 4095 → rawPiRad r * 180 = ((degrees512 r).toNat : Rat) / 512)

/-! ## Status Decoder (44_status.md) -/

/-- R201, R202: READ_STATUS_FLAGS reports the three flags independently in bits 0, 1 and 2; every other bit is 0. -/
def Obligations.StatusFlagsAreIndependent : Prop :=
  ReadsAs 0x40#8 0#8 0#16 .readStatusFlags ∧
  ∀ s : State, ∃ r : Word,
    ByteReadEffect .readStatusFlags 0x0B#8 r s ∧
    (r.getLsbD 0 = true ↔ answerByte s 1 0x0B#8 &&& s.params.statusMasks.magnetDetected ≠ 0#8) ∧
    (r.getLsbD 1 = true ↔ answerByte s 1 0x0B#8 &&& s.params.statusMasks.magnetTooWeak ≠ 0#8) ∧
    (r.getLsbD 2 = true ↔ answerByte s 1 0x0B#8 &&& s.params.statusMasks.magnetTooStrong ≠ 0#8) ∧
    r.toNat < 8

/-! ## Device Handle (45_handle.md) -/

/-- R49, R210: PROBE is one address-only transaction, never a BUS_ERROR. -/
def Obligations.ProbeReportsConnection : Prop :=
  ReadsAs 0x50#8 0#8 0#16 .probe ∧
  ∀ s : State, exec .probe s = .next (okWith (if answerStatus s 0 = 0#8 then 1#32 else 0#32)
    (afterCalls s 1 (answerStatus s 0) [.prb s.addr (answerStatus s 0)]))

/-- R211, R213: GET_ADDRESS and GET_LAST_ERROR read their register and change nothing but the response. -/
def Obligations.HandleReadsChangeNothing : Prop :=
  ReadsAs 0x51#8 0#8 0#16 .getAddress ∧ ReadsAs 0x53#8 0#8 0#16 .getLastError ∧
  ∀ s : State,
    exec .getAddress s = .next (okWith (BitVec.ofNat 32 s.addr.toNat) s) ∧
    exec .getLastError s = .next (okWith (BitVec.ofNat 32 s.lastErr.toNat) s)

/-- R212, R214: SET_ADDRESS rebinds `ADDR` within 0x08..0x77 on the addressable variant; on the base variant every word
with its opcode is ILLEGAL_COMMAND. -/
def Obligations.SetAddressRebinds : Prop :=
  (∀ (v : Half) (aux : Word), decode .addressable ⟨cmdWord 0x52#8 0#8 v, aux⟩ = .instr (.setAddress v)) ∧
  (∀ (v : Half) (s : State), s.params.variant = .addressable →
    (v.toNat < 0x08 ∨ 0x77 < v.toNat → exec (.setAddress v) s = .next (invalidOf s)) ∧
    (0x08 ≤ v.toNat → v.toNat ≤ 0x77 →
      exec (.setAddress v) s = .next (okWith 0#32 { s with addr := BitVec.ofNat 7 v.toNat }))) ∧
  (∀ (s : State) (c : Command) (rest : List Command), s.params.variant = .base → s.commands = c :: rest →
    cmdOp c.cmd = 0x52#8 →
    step s = .next { s with commands := rest, response := some ⟨.illegalCommand, 0#32, 0#32⟩ })

/-! ## The whole machine -/

/-- R25: the invariants hold after every step. -/
def Obligations.StepKeepsInvariant : Prop :=
  ∀ s t : State, s.Inv → step s = .next t → t.Inv

/-- R32, R245: the reset values, for every parameter set in its domain, and no transaction; the invariants hold there. -/
def Obligations.ResetHoldsInvariant : Prop :=
  ∀ p : Params, p.wf = true →
    (State.resetWith p).Inv ∧
    (p.variant = .base → (State.resetWith p).addr = 0x36#7) ∧
    (p.variant = .addressable → (State.resetWith p).addr = 0x40#7) ∧
    (State.resetWith p).offset = 0#12 ∧ (State.resetWith p).hist = none ∧ (State.resetWith p).lastErr = 0#8 ∧
    (State.resetWith p).history = []

/-- R24: `LAST_ERR` is the status of the most recent transaction: a step that issues transactions leaves the last one's
status there, and a step that issues none leaves it unchanged; INVALID_ARGUMENT and ILLEGAL_COMMAND leave it unchanged;
it is 0 at reset; GET_LAST_ERROR reads it and does not clear it. -/
def Obligations.LastErrorIsLastStatus : Prop :=
  (∀ p : Params, (State.resetWith p).lastErr = 0#8 ∧
    (State.resetWith p).lastErr = lastStatus (State.resetWith p).history) ∧
  (∀ s : State, ∃ t, exec .getLastError s = .next t ∧ t.lastErr = s.lastErr ∧
    t.response = some ⟨.ok, s.lastErr.setWidth 32, 0#32⟩) ∧
  (∀ (i : Instr) (s t : State) (r r2 : Word), exec i s = .next t →
    t.response = some ⟨.invalidArgument, r, r2⟩ ∨ t.response = some ⟨.illegalCommand, r, r2⟩ → t.lastErr = s.lastErr) ∧
  (∀ s t : State, step s = .next t → ∃ calls, t.history = s.history ++ calls ∧
    t.lastErr = (statuses calls).getLastD s.lastErr) ∧
  (∀ s t : State, s.lastErr = lastStatus s.history → step s = .next t → t.lastErr = lastStatus t.history)

/-- Every Transport call of a step goes to the address `ADDR` holds before it, and none names register 0xFF (R41, R56). -/
def Obligations.BusTrafficStaysAllowed : Prop :=
  ∀ s t : State, step s = .next t →
    ∃ calls, t.history = s.history ++ calls ∧ ∀ e ∈ calls, callAllowed s.addr e = true

/-- A command issues at most four transactions, stops at the first failing one, and never retries; it ends with BUS_ERROR
exactly when a transaction of a command other than PROBE failed (R222, R225, R226). -/
def Obligations.CommandStopsAtFirstFailure : Prop :=
  ∀ (i : Instr) (s t : State), exec i s = .next t →
    ∃ (n : Nat) (calls : List Event),
      n ≤ 4 ∧ t.history = s.history ++ calls ∧ statuses calls = (List.range n).map (answerStatus s) ∧
      t.answers = s.answers.drop n ∧ (∀ j, j + 1 < n → answerStatus s j = 0#8) ∧
      ((∃ r r2, t.response = some ⟨.busError, r, r2⟩) ↔ i ≠ .probe ∧ 0 < n ∧ answerStatus s (n - 1) ≠ 0#8)

/-- R221: a command ends with INVALID_ARGUMENT exactly for the causes R221 lists, and then nothing but the response
changes. -/
def Obligations.InvalidArgumentExactly : Prop :=
  ∀ (i : Instr) (s t : State), exec i s = .next t →
    (invalidCause s.params i → t = invalidOf s) ∧
    ((∃ r r2, t.response = some ⟨.invalidArgument, r, r2⟩) → invalidCause s.params i)

/-- Only the offset-set commands write `OFFSET` (R22), only SET_ADDRESS on the addressable variant writes `ADDR` (R21),
only SPEED_SAMPLE writes `HIST`, which never returns to NONE (R23); no step changes the parameters (R8). -/
def Obligations.RegistersHaveTheirWriters : Prop :=
  (∀ (i : Instr) (s t : State), exec i s = .next t →
    (t.offset ≠ s.offset → (∃ v, i = .setOffsetRaw v) ∨ (∃ c, i = .setOffsetCdeg c)) ∧
    (t.addr ≠ s.addr → (∃ v, i = .setAddress v) ∧ s.params.variant = .addressable) ∧
    (t.hist ≠ s.hist → ∃ now, i = .speedSample now)) ∧
  (∀ s t : State, step s = .next t → t.params = s.params ∧ (s.hist ≠ none → t.hist ≠ none))

/-- The software offset reaches nothing but itself, outside EFF_ANGLE, GET_OFFSET_RAW and GET_OFFSET_DEG (R22). Two states
that differ in `OFFSET` alone lead, under every other command, to states that differ in `OFFSET` alone: equal after an
offset setter that ends OK, and the two values kept otherwise. The same holds of a step. The two states have equal `draws`,
so the sensor answers both alike: the model's choice (log 5). -/
def Obligations.OffsetHasOnlyItsReaders : Prop :=
  (∀ (i : Instr) (s t u : State) (o : Angle), ¬ readsOffset i →
    exec i s = .next t → exec i { s with offset := o } = .next u →
    u = { t with offset := u.offset } ∧
    (setsOffset i → (∃ r r2, t.response = some ⟨.ok, r, r2⟩) → u.offset = t.offset) ∧
    (¬ (setsOffset i ∧ ∃ r r2, t.response = some ⟨.ok, r, r2⟩) → t.offset = s.offset ∧ u.offset = o)) ∧
  (∀ (s t u : State) (o : Angle),
    (∀ (c : Command) (rest : List Command) (i : Instr), s.commands = c :: rest →
      decode s.params.variant c = .instr i → ¬ readsOffset i) →
    step s = .next t → step { s with offset := o } = .next u → u = { t with offset := u.offset })

/-- R220, R237: every command is answered: the step that takes it leaves a response, and never stops. The words of a
response that is not OK and not BUS_ERROR are 0 (R35). -/
def Obligations.EveryCommandIsAnswered : Prop :=
  ∀ (s : State) (c : Command) (rest : List Command), s.commands = c :: rest →
    ∃ (t : State) (r : Response), step s = .next t ∧ t.commands = rest ∧ t.response = some r ∧
      (r.status = .invalidArgument ∨ r.status = .illegalCommand → r.result = 0#32 ∧ r.result2 = 0#32)
end

