-- ==== Sys2Proof/Laws/Encoding.lean ====
section
/-! SUPPORT. The fields of a command word: reading a field of a word built from fields gives it back, and every word is
built from its fields. -/

namespace Sys2Proof

/-- A bit of a command word is a bit of one of its fields (R66). -/
theorem getLsbD_cmdWord (op a : Byte) (d : Half) (i : Nat) :
    (cmdWord op a d).getLsbD i =
      if i < 16 then d.getLsbD i else if i < 24 then a.getLsbD (i - 16) else op.getLsbD (i - 24) := by
  have h : (cmdWord op a d).getLsbD i = (op ++ a ++ d : BitVec (8 + 8 + 16)).getLsbD i := rfl
  rw [h, BitVec.getLsbD_append, BitVec.getLsbD_append]
  by_cases h16 : i < 16
  · simp [h16]
  · by_cases h24 : i < 24
    · simp [h16, h24, show i - 16 < 8 by omega]
    · simp [h16, h24, show ¬ i - 16 < 8 by omega, show i - 16 - 8 = i - 24 by omega]

theorem getLsbD_auxPair (x y : Half) (i : Nat) :
    (auxPair x y).getLsbD i = if i < 16 then y.getLsbD i else x.getLsbD (i - 16) := by
  have h : (auxPair x y).getLsbD i = (x ++ y : BitVec (16 + 16)).getLsbD i := rfl
  rw [h, BitVec.getLsbD_append]

@[simp] theorem cmdOp_cmdWord (op a : Byte) (d : Half) : cmdOp (cmdWord op a d) = op := by
  refine BitVec.eq_of_getLsbD_eq fun i hi => ?_
  simp [cmdOp, getLsbD_cmdWord, hi, show ¬ 24 + i < 16 by omega]

@[simp] theorem cmdA_cmdWord (op a : Byte) (d : Half) : cmdA (cmdWord op a d) = a := by
  refine BitVec.eq_of_getLsbD_eq fun i hi => ?_
  simp [cmdA, getLsbD_cmdWord, hi, show 16 + i < 24 by omega]

@[simp] theorem cmdD_cmdWord (op a : Byte) (d : Half) : cmdD (cmdWord op a d) = d := by
  refine BitVec.eq_of_getLsbD_eq fun i hi => ?_
  simp [cmdD, getLsbD_cmdWord, hi]

/-- Every command word is its three fields (R66). -/
theorem cmdWord_fields (cmd : Word) : cmdWord (cmdOp cmd) (cmdA cmd) (cmdD cmd) = cmd := by
  refine BitVec.eq_of_getLsbD_eq fun i hi => ?_
  rw [getLsbD_cmdWord]
  by_cases h16 : i < 16
  · simp [h16, cmdD]
  · by_cases h24 : i < 24
    · simp [h16, h24, cmdA, show i - 16 < 8 by omega, show 16 + (i - 16) = i by omega]
    · simp [h16, h24, cmdOp, show i - 24 < 8 by omega, show 24 + (i - 24) = i by omega]

@[simp] theorem auxHigh_auxPair (x y : Half) : auxHigh (auxPair x y) = x := by
  refine BitVec.eq_of_getLsbD_eq fun i hi => ?_
  simp [auxHigh, getLsbD_auxPair, hi]

@[simp] theorem auxLow_auxPair (x y : Half) : auxLow (auxPair x y) = y := by
  refine BitVec.eq_of_getLsbD_eq fun i hi => ?_
  simp [auxLow, getLsbD_auxPair, hi]

@[simp] theorem aHigh_shiftByte (k : BitVec 4) : aHigh (shiftByte k) = 0#4 := by
  revert k; decide

@[simp] theorem aShift_shiftByte (k : BitVec 4) : aShift (shiftByte k) = k := by
  revert k; decide

/-- A byte whose high four bits are 0 is its shift (R67). -/
theorem shiftByte_aShift {a : Byte} (h : aHigh a = 0#4) : shiftByte (aShift a) = a := by
  revert a; decide

@[simp] theorem whenReservedZero_true (i : Instr) : whenReservedZero true i = .instr i := rfl

@[simp] theorem whenReservedZero_false (i : Instr) : whenReservedZero false i = .illegal .reservedField := rfl

/-- Masking a command word masks its fields. -/
theorem cmdWord_and (op op' a a' : Byte) (d d' : Half) :
    cmdWord op a d &&& cmdWord op' a' d' = cmdWord (op &&& op') (a &&& a') (d &&& d') := by
  refine BitVec.eq_of_getLsbD_eq fun i hi => ?_
  simp only [BitVec.getLsbD_and, getLsbD_cmdWord]
  by_cases h16 : i < 16
  · simp [h16]
  · by_cases h24 : i < 24 <;> simp [h16, h24]

/-- Two command words are equal exactly when their fields are. -/
theorem cmdWord_inj {op op' a a' : Byte} {d d' : Half} :
    cmdWord op a d = cmdWord op' a' d' ↔ op = op' ∧ a = a' ∧ d = d' := by
  refine ⟨fun h => ⟨?_, ?_, ?_⟩, fun ⟨h1, h2, h3⟩ => by rw [h1, h2, h3]⟩
  · simpa using congrArg cmdOp h
  · simpa using congrArg cmdA h
  · simpa using congrArg cmdD h

/-- A row matches a word exactly when each field, masked, is the pattern's field (R70). -/
theorem rowMatches_iff {r : OpcodeRow} (op ma : Byte) (md : Half) (hp : r.pattern = cmdWord op 0#8 0#16)
    (hm : r.mask = cmdWord 0xFF#8 ma md) (cmd : Word) :
    rowMatches r cmd = true ↔ cmdOp cmd = op ∧ cmdA cmd &&& ma = 0#8 ∧ cmdD cmd &&& md = 0#16 := by
  have h : cmdOp cmd &&& 0xFF#8 = cmdOp cmd := BitVec.and_allOnes
  rw [rowMatches, beq_iff_eq, hp, hm]
  conv => lhs; lhs; lhs; rw [← cmdWord_fields cmd]
  rw [cmdWord_and, cmdWord_inj, h]

end Sys2Proof
end

