-- ==== Sys2Proof/Laws/State.lean ====
section
/-! SUPPORT. What each state update does to each field: one lemma a field a update, so that no proof unfolds a
record update. -/

namespace Sys2Proof.Machine

/-! ## record -/

@[simp] theorem record_params (e : Event) (s : State) :
    (record e s).params = s.params := rfl

@[simp] theorem record_addr (e : Event) (s : State) :
    (record e s).addr = s.addr := rfl

@[simp] theorem record_offset (e : Event) (s : State) :
    (record e s).offset = s.offset := rfl

@[simp] theorem record_hist (e : Event) (s : State) :
    (record e s).hist = s.hist := rfl

@[simp] theorem record_lastErr (e : Event) (s : State) :
    (record e s).lastErr = s.lastErr := rfl

@[simp] theorem record_commands (e : Event) (s : State) :
    (record e s).commands = s.commands := rfl

@[simp] theorem record_sensor (e : Event) (s : State) :
    (record e s).sensor = s.sensor := rfl

@[simp] theorem record_answers (e : Event) (s : State) :
    (record e s).answers = s.answers := rfl

@[simp] theorem record_draws (e : Event) (s : State) :
    (record e s).draws = s.draws := rfl

@[simp] theorem record_response (e : Event) (s : State) :
    (record e s).response = s.response := rfl

@[simp] theorem record_history (e : Event) (s : State) :
    (record e s).history = s.history ++ [e] := rfl

/-! ## settle -/

@[simp] theorem settle_params (e : Event) (code : Byte) (s : State) :
    (settle e code s).params = s.params := rfl

@[simp] theorem settle_addr (e : Event) (code : Byte) (s : State) :
    (settle e code s).addr = s.addr := rfl

@[simp] theorem settle_offset (e : Event) (code : Byte) (s : State) :
    (settle e code s).offset = s.offset := rfl

@[simp] theorem settle_hist (e : Event) (code : Byte) (s : State) :
    (settle e code s).hist = s.hist := rfl

@[simp] theorem settle_lastErr (e : Event) (code : Byte) (s : State) :
    (settle e code s).lastErr = code := rfl

@[simp] theorem settle_commands (e : Event) (code : Byte) (s : State) :
    (settle e code s).commands = s.commands := rfl

@[simp] theorem settle_sensor (e : Event) (code : Byte) (s : State) :
    (settle e code s).sensor = s.sensor := rfl

@[simp] theorem settle_answers (e : Event) (code : Byte) (s : State) :
    (settle e code s).answers = s.answers.drop 1 := rfl

@[simp] theorem settle_draws (e : Event) (code : Byte) (s : State) :
    (settle e code s).draws = s.draws + 1 := rfl

@[simp] theorem settle_response (e : Event) (code : Byte) (s : State) :
    (settle e code s).response = s.response := rfl

@[simp] theorem settle_history (e : Event) (code : Byte) (s : State) :
    (settle e code s).history = s.history ++ [e] := rfl

/-! ## respond -/

@[simp] theorem respond_params (x : Status) (r r2 : Word) (s : State) :
    (respond x r r2 s).params = s.params := rfl

@[simp] theorem respond_addr (x : Status) (r r2 : Word) (s : State) :
    (respond x r r2 s).addr = s.addr := rfl

@[simp] theorem respond_offset (x : Status) (r r2 : Word) (s : State) :
    (respond x r r2 s).offset = s.offset := rfl

@[simp] theorem respond_hist (x : Status) (r r2 : Word) (s : State) :
    (respond x r r2 s).hist = s.hist := rfl

@[simp] theorem respond_lastErr (x : Status) (r r2 : Word) (s : State) :
    (respond x r r2 s).lastErr = s.lastErr := rfl

@[simp] theorem respond_commands (x : Status) (r r2 : Word) (s : State) :
    (respond x r r2 s).commands = s.commands := rfl

@[simp] theorem respond_sensor (x : Status) (r r2 : Word) (s : State) :
    (respond x r r2 s).sensor = s.sensor := rfl

@[simp] theorem respond_answers (x : Status) (r r2 : Word) (s : State) :
    (respond x r r2 s).answers = s.answers := rfl

@[simp] theorem respond_draws (x : Status) (r r2 : Word) (s : State) :
    (respond x r r2 s).draws = s.draws := rfl

@[simp] theorem respond_response (x : Status) (r r2 : Word) (s : State) :
    (respond x r r2 s).response = some ⟨x, r, r2⟩ := rfl

@[simp] theorem respond_history (x : Status) (r r2 : Word) (s : State) :
    (respond x r r2 s).history = s.history := rfl

/-! ## respondOk -/

@[simp] theorem respondOk_params (r : Word) (s : State) :
    (respondOk r s).params = s.params := rfl

@[simp] theorem respondOk_addr (r : Word) (s : State) :
    (respondOk r s).addr = s.addr := rfl

@[simp] theorem respondOk_offset (r : Word) (s : State) :
    (respondOk r s).offset = s.offset := rfl

@[simp] theorem respondOk_hist (r : Word) (s : State) :
    (respondOk r s).hist = s.hist := rfl

@[simp] theorem respondOk_lastErr (r : Word) (s : State) :
    (respondOk r s).lastErr = s.lastErr := rfl

@[simp] theorem respondOk_commands (r : Word) (s : State) :
    (respondOk r s).commands = s.commands := rfl

@[simp] theorem respondOk_sensor (r : Word) (s : State) :
    (respondOk r s).sensor = s.sensor := rfl

@[simp] theorem respondOk_answers (r : Word) (s : State) :
    (respondOk r s).answers = s.answers := rfl

@[simp] theorem respondOk_draws (r : Word) (s : State) :
    (respondOk r s).draws = s.draws := rfl

@[simp] theorem respondOk_response (r : Word) (s : State) :
    (respondOk r s).response = some ⟨.ok, r, 0#32⟩ := rfl

@[simp] theorem respondOk_history (r : Word) (s : State) :
    (respondOk r s).history = s.history := rfl

/-! ## raiseInvalidArgument -/

@[simp] theorem raiseInvalidArgument_params (s : State) :
    (raiseInvalidArgument s).params = s.params := rfl

@[simp] theorem raiseInvalidArgument_addr (s : State) :
    (raiseInvalidArgument s).addr = s.addr := rfl

@[simp] theorem raiseInvalidArgument_offset (s : State) :
    (raiseInvalidArgument s).offset = s.offset := rfl

@[simp] theorem raiseInvalidArgument_hist (s : State) :
    (raiseInvalidArgument s).hist = s.hist := rfl

@[simp] theorem raiseInvalidArgument_lastErr (s : State) :
    (raiseInvalidArgument s).lastErr = s.lastErr := rfl

@[simp] theorem raiseInvalidArgument_commands (s : State) :
    (raiseInvalidArgument s).commands = s.commands := rfl

@[simp] theorem raiseInvalidArgument_sensor (s : State) :
    (raiseInvalidArgument s).sensor = s.sensor := rfl

@[simp] theorem raiseInvalidArgument_answers (s : State) :
    (raiseInvalidArgument s).answers = s.answers := rfl

@[simp] theorem raiseInvalidArgument_draws (s : State) :
    (raiseInvalidArgument s).draws = s.draws := rfl

@[simp] theorem raiseInvalidArgument_response (s : State) :
    (raiseInvalidArgument s).response = some ⟨.invalidArgument, 0#32, 0#32⟩ := rfl

@[simp] theorem raiseInvalidArgument_history (s : State) :
    (raiseInvalidArgument s).history = s.history := rfl

/-! ## raiseIllegalCommand -/

@[simp] theorem raiseIllegalCommand_params (s : State) :
    (raiseIllegalCommand s).params = s.params := rfl

@[simp] theorem raiseIllegalCommand_addr (s : State) :
    (raiseIllegalCommand s).addr = s.addr := rfl

@[simp] theorem raiseIllegalCommand_offset (s : State) :
    (raiseIllegalCommand s).offset = s.offset := rfl

@[simp] theorem raiseIllegalCommand_hist (s : State) :
    (raiseIllegalCommand s).hist = s.hist := rfl

@[simp] theorem raiseIllegalCommand_lastErr (s : State) :
    (raiseIllegalCommand s).lastErr = s.lastErr := rfl

@[simp] theorem raiseIllegalCommand_commands (s : State) :
    (raiseIllegalCommand s).commands = s.commands := rfl

@[simp] theorem raiseIllegalCommand_sensor (s : State) :
    (raiseIllegalCommand s).sensor = s.sensor := rfl

@[simp] theorem raiseIllegalCommand_answers (s : State) :
    (raiseIllegalCommand s).answers = s.answers := rfl

@[simp] theorem raiseIllegalCommand_draws (s : State) :
    (raiseIllegalCommand s).draws = s.draws := rfl

@[simp] theorem raiseIllegalCommand_response (s : State) :
    (raiseIllegalCommand s).response = some ⟨.illegalCommand, 0#32, 0#32⟩ := rfl

@[simp] theorem raiseIllegalCommand_history (s : State) :
    (raiseIllegalCommand s).history = s.history := rfl

/-! ## raiseBusError -/

@[simp] theorem raiseBusError_params (s : State) :
    (raiseBusError s).params = s.params := rfl

@[simp] theorem raiseBusError_addr (s : State) :
    (raiseBusError s).addr = s.addr := rfl

@[simp] theorem raiseBusError_offset (s : State) :
    (raiseBusError s).offset = s.offset := rfl

@[simp] theorem raiseBusError_hist (s : State) :
    (raiseBusError s).hist = s.hist := rfl

@[simp] theorem raiseBusError_lastErr (s : State) :
    (raiseBusError s).lastErr = s.lastErr := rfl

@[simp] theorem raiseBusError_commands (s : State) :
    (raiseBusError s).commands = s.commands := rfl

@[simp] theorem raiseBusError_sensor (s : State) :
    (raiseBusError s).sensor = s.sensor := rfl

@[simp] theorem raiseBusError_answers (s : State) :
    (raiseBusError s).answers = s.answers := rfl

@[simp] theorem raiseBusError_draws (s : State) :
    (raiseBusError s).draws = s.draws + 2 := rfl

@[simp] theorem raiseBusError_response (s : State) :
    (raiseBusError s).response = some ⟨.busError, Config.drawWord s.draws, Config.drawWord (s.draws + 1)⟩ := rfl

@[simp] theorem raiseBusError_history (s : State) :
    (raiseBusError s).history = s.history := rfl

/-! ## afterCalls -/

@[simp] theorem afterCalls_params (s : State) (n : Nat) (code : Byte) (calls : List Event) :
    (afterCalls s n code calls).params = s.params := rfl

@[simp] theorem afterCalls_addr (s : State) (n : Nat) (code : Byte) (calls : List Event) :
    (afterCalls s n code calls).addr = s.addr := rfl

@[simp] theorem afterCalls_offset (s : State) (n : Nat) (code : Byte) (calls : List Event) :
    (afterCalls s n code calls).offset = s.offset := rfl

@[simp] theorem afterCalls_hist (s : State) (n : Nat) (code : Byte) (calls : List Event) :
    (afterCalls s n code calls).hist = s.hist := rfl

@[simp] theorem afterCalls_lastErr (s : State) (n : Nat) (code : Byte) (calls : List Event) :
    (afterCalls s n code calls).lastErr = code := rfl

@[simp] theorem afterCalls_commands (s : State) (n : Nat) (code : Byte) (calls : List Event) :
    (afterCalls s n code calls).commands = s.commands := rfl

@[simp] theorem afterCalls_sensor (s : State) (n : Nat) (code : Byte) (calls : List Event) :
    (afterCalls s n code calls).sensor = s.sensor := rfl

@[simp] theorem afterCalls_answers (s : State) (n : Nat) (code : Byte) (calls : List Event) :
    (afterCalls s n code calls).answers = s.answers.drop n := rfl

@[simp] theorem afterCalls_draws (s : State) (n : Nat) (code : Byte) (calls : List Event) :
    (afterCalls s n code calls).draws = s.draws + n := rfl

@[simp] theorem afterCalls_response (s : State) (n : Nat) (code : Byte) (calls : List Event) :
    (afterCalls s n code calls).response = s.response := rfl

@[simp] theorem afterCalls_history (s : State) (n : Nat) (code : Byte) (calls : List Event) :
    (afterCalls s n code calls).history = s.history ++ calls := rfl

/-! ## presentCommand -/

@[simp] theorem presentCommand_params (c : Command) (s : State) :
    (presentCommand c s).params = s.params := rfl

@[simp] theorem presentCommand_addr (c : Command) (s : State) :
    (presentCommand c s).addr = s.addr := rfl

@[simp] theorem presentCommand_offset (c : Command) (s : State) :
    (presentCommand c s).offset = s.offset := rfl

@[simp] theorem presentCommand_hist (c : Command) (s : State) :
    (presentCommand c s).hist = s.hist := rfl

@[simp] theorem presentCommand_lastErr (c : Command) (s : State) :
    (presentCommand c s).lastErr = s.lastErr := rfl

@[simp] theorem presentCommand_commands (c : Command) (s : State) :
    (presentCommand c s).commands = c :: s.commands := rfl

@[simp] theorem presentCommand_sensor (c : Command) (s : State) :
    (presentCommand c s).sensor = s.sensor := rfl

@[simp] theorem presentCommand_answers (c : Command) (s : State) :
    (presentCommand c s).answers = s.answers := rfl

@[simp] theorem presentCommand_draws (c : Command) (s : State) :
    (presentCommand c s).draws = s.draws := rfl

@[simp] theorem presentCommand_response (c : Command) (s : State) :
    (presentCommand c s).response = s.response := rfl

@[simp] theorem presentCommand_history (c : Command) (s : State) :
    (presentCommand c s).history = s.history := rfl

end Sys2Proof.Machine
end

