-- ==== Sys2Proof/Laws/Memory.lean ====
section
/-! SUPPORT. The register-file memory: every operation keeps the canonical form, and a read after a write. -/

namespace Sys2Proof.Machine

theorem Memory.wfFrom_mono {lo lo' : Nat} {m : Memory} (h : Memory.wfFrom lo m = true) (hle : lo' ≤ lo) :
    Memory.wfFrom lo' m = true := by
  cases m with
  | nil => rfl
  | cons c rest =>
    simp only [Memory.wfFrom, Bool.and_eq_true, decide_eq_true_eq] at h ⊢
    exact ⟨⟨⟨by omega, h.1.1.2⟩, h.1.2⟩, h.2⟩

/-- A write keeps the canonical form. -/
theorem Memory.wfFrom_write {m : Memory} {lo a : Nat} (b : Byte) (h : Memory.wfFrom lo m = true) (hlo : lo ≤ a)
    (ha : a < 256) : Memory.wfFrom lo (Memory.write m a b) = true := by
  induction m generalizing lo with
  | nil =>
    simp only [Memory.write]
    split
    · rfl
    · rename_i hb
      simp [Memory.wfFrom, hlo, ha, hb]
  | cons c rest ih =>
    obtain ⟨k, v⟩ := c
    simp only [Memory.wfFrom, Bool.and_eq_true, decide_eq_true_eq] at h
    obtain ⟨⟨⟨hk, hk2⟩, hv⟩, hr⟩ := h
    simp only [Memory.write]
    split
    · split
      · simp [Memory.wfFrom, hk, hk2, hv, hr]
      · rename_i hak hb
        simp [Memory.wfFrom, hlo, ha, hb, hak, hk2, hv, hr]
    · split
      · split
        · exact Memory.wfFrom_mono hr (by omega)
        · rename_i _ hak hb
          subst hak
          simp [Memory.wfFrom, hlo, ha, hb, hr]
      · simp only [Memory.wfFrom, Bool.and_eq_true, decide_eq_true_eq]
        exact ⟨⟨⟨hk, hk2⟩, hv⟩, ih hr (by omega)⟩

theorem Memory.wf_write {m : Memory} {a : Nat} (b : Byte) (h : m.wf = true) (ha : a < 256) :
    (m.write a b).wf = true :=
  Memory.wfFrom_write b h (Nat.zero_le a) ha

/-- A read below every listed address is unlisted. -/
theorem Memory.read_of_lt {m : Memory} {lo a : Nat} (h : Memory.wfFrom lo m = true) (ha : a < lo) :
    m.read a = unlistedByte := by
  induction m generalizing lo with
  | nil => rfl
  | cons c rest ih =>
    obtain ⟨k, v⟩ := c
    simp only [Memory.wfFrom, Bool.and_eq_true, decide_eq_true_eq] at h
    obtain ⟨⟨⟨hk, -⟩, -⟩, hr⟩ := h
    rw [Memory.read, if_neg (by omega)]
    exact ih hr (by omega)

/-- A read after a write: the byte written at that address, the byte before elsewhere. -/
theorem Memory.read_write {m : Memory} {lo : Nat} (a a' : Nat) (b : Byte) (h : Memory.wfFrom lo m = true) :
    (m.write a b).read a' = if a = a' then b else m.read a' := by
  induction m generalizing lo with
  | nil =>
    by_cases hb : b = unlistedByte <;> by_cases he : a = a' <;> simp [Memory.write, Memory.read, hb, he]
  | cons c rest ih =>
    obtain ⟨k, v⟩ := c
    simp only [Memory.wfFrom, Bool.and_eq_true, decide_eq_true_eq] at h
    obtain ⟨⟨⟨hk, hk2⟩, hv⟩, hr⟩ := h
    simp only [Memory.write]
    by_cases hak : a < k
    · by_cases hb : b = unlistedByte
      · by_cases he : a = a'
        · subst he
          rw [if_pos hak, if_pos hb, if_pos rfl, Memory.read, if_neg (by omega), Memory.read_of_lt hr (by omega), hb]
        · simp [hak, hb, he]
      · rw [if_pos hak, if_neg hb, Memory.read]
    · by_cases hak' : a = k
      · subst hak'
        by_cases hb : b = unlistedByte
        · rw [if_neg hak, if_pos rfl, if_pos hb]
          by_cases he : a = a'
          · subst he
            rw [if_pos rfl, Memory.read_of_lt hr (by omega), hb]
          · rw [if_neg he, Memory.read, if_neg he]
        · rw [if_neg hak, if_pos rfl, if_neg hb]
          by_cases he : a = a' <;> simp [Memory.read, he]
      · rw [if_neg hak, if_neg hak', Memory.read, Memory.read, ih hr]
        by_cases hka : k = a'
        · subst hka
          simp [hak']
        · simp [hka]

/-- A write to the sensor keeps the register file's canonical form. -/
theorem sensorWf_sensorWrite {x : Sensor} (reg b code : Byte) (h : sensorWf x = true) :
    sensorWf (sensorWrite x reg b code) = true := by
  cases x with
  | oracle => rfl
  | regFile dev lands =>
    cases hc : (decide (code = 0#8) || lands) <;> simp only [sensorWrite, hc]
    · exact h
    · exact Memory.wf_write b h reg.isLt

/-- Reset lists no memory (R32: the block has none; the sensor is the oracle). -/
theorem reset_sensor_wf (p : Params) : sensorWf (State.resetWith p).sensor = true := rfl

end Sys2Proof.Machine
end

