-- ==== Sys2Proof/Laws/Offset.lean ====
section
/-! SUPPORT. The bus accesses neither read nor write `OFFSET` (`10_state.md` R22): each commutes with a change of it. -/

namespace Sys2Proof.Machine

/-- `s` with another `OFFSET`. -/
abbrev State.setOffset (s : State) (o : Angle) : State := { s with offset := o }

/-- A bus access whose state, done or failed, has another `OFFSET`. -/
def BusResult.setOffset {α : Type} (r : BusResult α) (o : Angle) : BusResult α :=
  match r with
  | .done v t => .done v (t.setOffset o)
  | .failed t => .failed (t.setOffset o)

@[simp] theorem BusResult.setOffset_done {α : Type} (v : α) (t : State) (o : Angle) :
    (BusResult.done v t).setOffset o = .done v (t.setOffset o) := rfl

@[simp] theorem BusResult.setOffset_failed {α : Type} (t : State) (o : Angle) :
    (BusResult.failed t : BusResult α).setOffset o = .failed (t.setOffset o) := rfl

theorem answerStatus_setOffset (s : State) (o : Angle) (j : Nat) :
    answerStatus (s.setOffset o) j = answerStatus s j := rfl

theorem answerByte_setOffset (s : State) (o : Angle) (j : Nat) (reg : Byte) :
    answerByte (s.setOffset o) j reg = answerByte s j reg := rfl

theorem selectRegister_setOffset (reg : Byte) (s : State) (o : Angle) :
    selectRegister reg (s.setOffset o) = (selectRegister reg s).setOffset o := by
  by_cases h : answerStatus s 0 = 0#8 <;> simp only [selectRegister, answerStatus_setOffset, h, if_true, if_false] <;> rfl

theorem requestByte_setOffset (reg : Byte) (s : State) (o : Angle) :
    requestByte reg (s.setOffset o) = (requestByte reg s).setOffset o := by
  by_cases h : answerStatus s 0 = 0#8 <;> simp only [requestByte, answerStatus_setOffset, h, if_true, if_false] <;> rfl

theorem memRead_setOffset (reg : Byte) (s : State) (o : Angle) :
    memRead reg (s.setOffset o) = (memRead reg s).setOffset o := by
  simp only [memRead, selectRegister_setOffset]
  cases selectRegister reg s with
  | done v t => exact requestByte_setOffset reg t o
  | failed t => rfl

theorem memWrite_setOffset (reg b : Byte) (s : State) (o : Angle) :
    memWrite reg b (s.setOffset o) = (memWrite reg b s).setOffset o := by
  by_cases h : answerStatus s 0 = 0#8 <;> simp only [memWrite, answerStatus_setOffset, h, if_true, if_false] <;> rfl

theorem readPair_setOffset (w : PairWidth) (reg : Byte) (s : State) (o : Angle) :
    readPair w reg (s.setOffset o) = (readPair w reg s).setOffset o := by
  simp only [readPair, memRead_setOffset]
  cases memRead reg s with
  | failed t => rfl
  | done hi t =>
    simp only [BusResult.setOffset_done, memRead_setOffset]
    cases memRead (reg + 1#8) t <;> rfl

theorem writePair_setOffset (w : PairWidth) (reg : Byte) (v : Half) (s : State) (o : Angle) :
    writePair w reg v (s.setOffset o) = (writePair w reg v s).setOffset o := by
  simp only [writePair, memWrite_setOffset]
  cases memWrite reg (pairHighByte w v) s with
  | failed t => rfl
  | done _ t => exact memWrite_setOffset (reg + 1#8) (pairLowByte v) t o

end Sys2Proof.Machine
end

