-- ==== Sys2Proof/Laws/Ops.lean ====
section
/-! SUPPORT. What each shared operation can do, said once: the oracle's view after an update, and the closed forms of the
byte and pair accesses. Later proofs cite these and never unfold a transaction. -/

namespace Sys2Proof.Machine

/-! ## The oracle's answers seen from a later state -/

theorem sensorWrite_answers (s : State) (reg b code : Byte) (j : Nat) :
    answerStatus { s with sensor := sensorWrite s.sensor reg b code } j = answerStatus s j := by
  simp only [answerStatus]
  cases (s.answers[j]?).bind Answer.status with
  | some c => rfl
  | none =>
    cases h : s.sensor with
    | oracle => rfl
    | regFile dev lands => cases hc : (decide (code = 0#8) || lands) <;> simp [sensorWrite, hc]

theorem answerStatus_afterCalls (s : State) (n : Nat) (code : Byte) (calls : List Event) (j : Nat) :
    answerStatus (afterCalls s n code calls) j = answerStatus s (n + j) := by
  simp [answerStatus, List.getElem?_drop, Nat.add_assoc]

theorem answerByte_afterCalls (s : State) (n : Nat) (code : Byte) (calls : List Event) (j : Nat) (reg : Byte) :
    answerByte (afterCalls s n code calls) j reg = answerByte s (n + j) reg := by
  simp [answerByte, List.getElem?_drop, Nat.add_assoc]

@[simp] theorem answerStatus_record (e : Event) (s : State) (j : Nat) :
    answerStatus (record e s) j = answerStatus s j := rfl

@[simp] theorem answerByte_record (e : Event) (s : State) (j : Nat) (reg : Byte) :
    answerByte (record e s) j reg = answerByte s j reg := rfl

theorem settle_eq_afterCalls (e : Event) (code : Byte) (s : State) :
    settle e code s = afterCalls s 1 code [e] := rfl

theorem record_afterCalls (e : Event) (s : State) (n : Nat) (code : Byte) (calls : List Event) :
    record e (afterCalls s n code calls) = afterCalls s n code (calls ++ [e]) := by
  simp [record, afterCalls]

theorem afterCalls_afterCalls (s : State) (n m : Nat) (c d : Byte) (xs ys : List Event) :
    afterCalls (afterCalls s n c xs) m d ys = afterCalls s (n + m) d (xs ++ ys) := by
  simp [afterCalls, Nat.add_assoc]

/-! ## Byte accesses -/

theorem selectRegister_done {s : State} (reg : Byte) (h : answerStatus s 0 = 0#8) :
    selectRegister reg s = .done () (afterCalls s 1 0#8 [.sel s.addr reg 0#8]) := by
  simp [selectRegister, settle_eq_afterCalls, h]

theorem selectRegister_failed {s : State} (reg : Byte) (h : answerStatus s 0 ≠ 0#8) :
    selectRegister reg s = .failed (afterCalls s 1 (answerStatus s 0) [.sel s.addr reg (answerStatus s 0)]) := by
  simp [selectRegister, settle_eq_afterCalls, h]

/-- A byte read whose two transactions succeed returns the oracle's byte (R47). -/
theorem memRead_done {s : State} (reg : Byte) (h0 : answerStatus s 0 = 0#8) (h1 : answerStatus s 1 = 0#8) :
    memRead reg s = .done (answerByte s 1 reg) (afterCalls s 2 0#8 (byteReadCalls s 0 reg)) := by
  simp [memRead, selectRegister_done reg h0, requestByte, settle_eq_afterCalls, answerStatus_afterCalls,
    answerByte_afterCalls, h1, record_afterCalls, afterCalls_afterCalls, byteReadCalls]

/-- A byte read whose select fails stops there (R47, D6). -/
theorem memRead_select_failed {s : State} (reg : Byte) (h0 : answerStatus s 0 ≠ 0#8) :
    memRead reg s = .failed (afterCalls s 1 (answerStatus s 0) (byteFailCalls s 0 reg 0)) := by
  simp [memRead, selectRegister_failed reg h0, byteFailCalls]

/-- A byte read whose request fails stops there, without a byte (R47, D6). -/
theorem memRead_request_failed {s : State} (reg : Byte) (h0 : answerStatus s 0 = 0#8)
    (h1 : answerStatus s 1 ≠ 0#8) :
    memRead reg s = .failed (afterCalls s 2 (answerStatus s 1) (byteFailCalls s 0 reg 1)) := by
  simp [memRead, selectRegister_done reg h0, requestByte, settle_eq_afterCalls, answerStatus_afterCalls, h1,
    afterCalls_afterCalls, byteFailCalls]

/-- Everything a byte read can do. -/
theorem memRead_cases (reg : Byte) (s : State) :
    (Succeed s 2 ∧
      memRead reg s = .done (answerByte s 1 reg) (afterCalls s 2 0#8 (byteReadCalls s 0 reg))) ∨
    (∃ k, k < 2 ∧ FailsAt s k ∧
      memRead reg s = .failed (afterCalls s (k + 1) (answerStatus s k) (byteFailCalls s 0 reg k))) := by
  by_cases h0 : answerStatus s 0 = 0#8
  · have hs1 : Succeed s 1 := fun j hj => by
      obtain rfl : j = 0 := by omega
      exact h0
    by_cases h1 : answerStatus s 1 = 0#8
    · refine .inl ⟨fun j hj => ?_, memRead_done reg h0 h1⟩
      obtain rfl | rfl : j = 0 ∨ j = 1 := by omega
      · exact h0
      · exact h1
    · exact .inr ⟨1, by omega, ⟨hs1, h1⟩, memRead_request_failed reg h0 h1⟩
  · exact .inr ⟨0, by omega, ⟨fun j hj => absurd hj (Nat.not_lt_zero j), h0⟩, memRead_select_failed reg h0⟩

/-- A byte write that succeeds (R48). -/
theorem memWrite_done {s : State} (reg b : Byte) (h : answerStatus s 0 = 0#8) :
    memWrite reg b s =
      .done () { afterCalls s 1 0#8 [.wr s.addr reg b 0#8] with sensor := sensorWrite s.sensor reg b 0#8 } := by
  simp [memWrite, settle, afterCalls, h]

/-- A byte write that fails (R48). -/
theorem memWrite_failed {s : State} (reg b : Byte) (h : answerStatus s 0 ≠ 0#8) :
    memWrite reg b s =
      .failed { afterCalls s 1 (answerStatus s 0) [.wr s.addr reg b (answerStatus s 0)] with
        sensor := sensorWrite s.sensor reg b (answerStatus s 0) } := by
  simp [memWrite, settle, afterCalls, h]

/-- Everything a byte write can do. -/
theorem memWrite_cases (reg b : Byte) (s : State) :
    (answerStatus s 0 = 0#8 ∧ memWrite reg b s =
      .done () { afterCalls s 1 0#8 [.wr s.addr reg b 0#8] with sensor := sensorWrite s.sensor reg b 0#8 }) ∨
    (answerStatus s 0 ≠ 0#8 ∧ memWrite reg b s =
      .failed { afterCalls s 1 (answerStatus s 0) [.wr s.addr reg b (answerStatus s 0)] with
        sensor := sensorWrite s.sensor reg b (answerStatus s 0) }) := by
  by_cases h : answerStatus s 0 = 0#8
  · exact .inl ⟨h, memWrite_done reg b h⟩
  · exact .inr ⟨h, memWrite_failed reg b h⟩

/-- Everything a probe can do (R49). -/
theorem probeBus_eq (s : State) :
    probeBus s = (answerStatus s 0 == 0#8, afterCalls s 1 (answerStatus s 0) [.prb s.addr (answerStatus s 0)]) := rfl

/-! ## Pair accesses -/

/-- Everything a pair read can do (R100). -/
theorem readPair_cases (w : PairWidth) (reg : Byte) (s : State) :
    (Succeed s 4 ∧ readPair w reg s =
      .done (pairValue w (answerByte s 1 reg) (answerByte s 3 (reg + 1#8)))
        (afterCalls s 4 0#8 (pairReadCalls s reg))) ∨
    (∃ k, k < 4 ∧ FailsAt s k ∧
      readPair w reg s = .failed (afterCalls s (k + 1) (answerStatus s k) (pairFailCalls s reg k))) := by
  obtain ⟨h2, hr⟩ | ⟨k, hk, hf, hr⟩ := memRead_cases reg s
  · obtain ⟨h4, hr'⟩ | ⟨k, hk, hf, hr'⟩ :=
      memRead_cases (reg + 1#8) (afterCalls s 2 0#8 (byteReadCalls s 0 reg))
    · refine .inl ⟨fun j hj => ?_, ?_⟩
      · by_cases hj2 : j < 2
        · exact h2 j hj2
        · have := h4 (j - 2) (by omega)
          rwa [answerStatus_afterCalls, show 2 + (j - 2) = j by omega] at this
      · simp only [readPair, hr, hr', afterCalls_afterCalls, answerByte_afterCalls, pairReadCalls]
        simp [byteReadCalls, answerByte_afterCalls]
    · refine .inr ⟨k + 2, by omega, ⟨fun j hj => ?_, ?_⟩, ?_⟩
      · by_cases hj2 : j < 2
        · exact h2 j hj2
        · have := hf.1 (j - 2) (by omega)
          rwa [answerStatus_afterCalls, show 2 + (j - 2) = j by omega] at this
      · have := hf.2
        rwa [answerStatus_afterCalls, Nat.add_comm] at this
      · simp only [readPair, hr, hr', afterCalls_afterCalls, answerStatus_afterCalls, pairFailCalls]
        simp [byteFailCalls, answerStatus_afterCalls, show 2 + (k + 1) = k + 2 + 1 by omega,
          show 2 + k = k + 2 by omega]
  · refine .inr ⟨k, by omega, hf, ?_⟩
    simp [readPair, hr, pairFailCalls, hk]

/-- Both writes of a pair succeed (R101). -/
theorem writePair_done {s : State} (w : PairWidth) (reg : Byte) (v : Half)
    (h0 : answerStatus s 0 = 0#8) (h1 : answerStatus s 1 = 0#8) :
    writePair w reg v s = .done ()
      { afterCalls s 2 0#8 [.wr s.addr reg (pairHighByte w v) 0#8, .wr s.addr (reg + 1#8) (pairLowByte v) 0#8] with
        sensor := sensorWrite (sensorWrite s.sensor reg (pairHighByte w v) 0#8) (reg + 1#8) (pairLowByte v) 0#8 } := by
  have h1' : answerStatus { afterCalls s 1 0#8 [.wr s.addr reg (pairHighByte w v) 0#8] with
      sensor := sensorWrite s.sensor reg (pairHighByte w v) 0#8 } 0 = 0#8 := by
    rw [← h1]
    exact (sensorWrite_answers (afterCalls s 1 0#8 [.wr s.addr reg (pairHighByte w v) 0#8]) reg _ _ 0).trans
      (answerStatus_afterCalls _ _ _ _ _)
  simp only [writePair, memWrite_done reg _ h0, memWrite_done _ _ h1']
  simp [afterCalls]

/-- The first write of a pair fails: the second is not issued (R101, D7). -/
theorem writePair_first_failed {s : State} (w : PairWidth) (reg : Byte) (v : Half) (h0 : answerStatus s 0 ≠ 0#8) :
    writePair w reg v s = .failed
      { afterCalls s 1 (answerStatus s 0) [.wr s.addr reg (pairHighByte w v) (answerStatus s 0)] with
        sensor := sensorWrite s.sensor reg (pairHighByte w v) (answerStatus s 0) } := by
  simp only [writePair, memWrite_failed reg _ h0]

/-- The second write of a pair fails: the first stays written (R101, D7). -/
theorem writePair_second_failed {s : State} (w : PairWidth) (reg : Byte) (v : Half)
    (h0 : answerStatus s 0 = 0#8) (h1 : answerStatus s 1 ≠ 0#8) :
    writePair w reg v s = .failed
      { afterCalls s 2 (answerStatus s 1)
          [.wr s.addr reg (pairHighByte w v) 0#8, .wr s.addr (reg + 1#8) (pairLowByte v) (answerStatus s 1)] with
        sensor := sensorWrite (sensorWrite s.sensor reg (pairHighByte w v) 0#8) (reg + 1#8) (pairLowByte v)
          (answerStatus s 1) } := by
  have h1' : answerStatus { afterCalls s 1 0#8 [.wr s.addr reg (pairHighByte w v) 0#8] with
      sensor := sensorWrite s.sensor reg (pairHighByte w v) 0#8 } 0 = answerStatus s 1 :=
    (sensorWrite_answers (afterCalls s 1 0#8 [.wr s.addr reg (pairHighByte w v) 0#8]) reg _ _ 0).trans
      (answerStatus_afterCalls _ _ _ _ _)
  simp only [writePair, memWrite_done reg _ h0, memWrite_failed _ _ (h1' ▸ h1), h1']
  simp [afterCalls]

/-- Everything a pair write can do (R101, D7). -/
theorem writePair_cases (w : PairWidth) (reg : Byte) (v : Half) (s : State) :
    (Succeed s 2 ∧ writePair w reg v s = .done ()
      { afterCalls s 2 0#8 [.wr s.addr reg (pairHighByte w v) 0#8, .wr s.addr (reg + 1#8) (pairLowByte v) 0#8] with
        sensor := sensorWrite (sensorWrite s.sensor reg (pairHighByte w v) 0#8) (reg + 1#8) (pairLowByte v) 0#8 }) ∨
    (FailsAt s 0 ∧ writePair w reg v s = .failed
      { afterCalls s 1 (answerStatus s 0) [.wr s.addr reg (pairHighByte w v) (answerStatus s 0)] with
        sensor := sensorWrite s.sensor reg (pairHighByte w v) (answerStatus s 0) }) ∨
    (FailsAt s 1 ∧ writePair w reg v s = .failed
      { afterCalls s 2 (answerStatus s 1)
          [.wr s.addr reg (pairHighByte w v) 0#8, .wr s.addr (reg + 1#8) (pairLowByte v) (answerStatus s 1)] with
        sensor := sensorWrite (sensorWrite s.sensor reg (pairHighByte w v) 0#8) (reg + 1#8) (pairLowByte v)
          (answerStatus s 1) }) := by
  by_cases h0 : answerStatus s 0 = 0#8
  · have hs1 : Succeed s 1 := fun j hj => by
      obtain rfl : j = 0 := by omega
      exact h0
    by_cases h1 : answerStatus s 1 = 0#8
    · refine .inl ⟨fun j hj => ?_, writePair_done w reg v h0 h1⟩
      obtain rfl | rfl : j = 0 ∨ j = 1 := by omega
      · exact h0
      · exact h1
    · exact .inr (.inr ⟨⟨hs1, h1⟩, writePair_second_failed w reg v h0 h1⟩)
  · exact .inr (.inl ⟨⟨fun j hj => absurd hj (Nat.not_lt_zero j), h0⟩, writePair_first_failed w reg v h0⟩)

/-! ## What a command does after an access -/

@[simp] theorem afterBus_done {α : Type} (v : α) (t : State) (next : α → State → State) :
    afterBus (.done v t) next = next v t := rfl

@[simp] theorem afterBus_failed {α : Type} (t : State) (next : α → State → State) :
    afterBus (.failed t) next = raiseBusError t := rfl

/-! ## The two bytes of a pair as numbers -/

theorem pairValue12_toNat (hi lo : Byte) : (pairValue .w12 hi lo).toNat = hi.toNat % 16 * 256 + lo.toNat := by
  have h : ((hi &&& 0x0F#8).setWidth 16 <<< 8) &&& lo.setWidth 16 = 0#16 := by
    ext i hi'
    simp only [BitVec.getElem_and, BitVec.getElem_shiftLeft, BitVec.getElem_setWidth, BitVec.getElem_zero]
    by_cases hlt : i < 8
    · simp [hlt]
    · simp [BitVec.getLsbD_of_ge lo i (by omega)]
  have hm : (hi &&& 0x0F#8).toNat = hi.toNat % 16 := by
    simp [BitVec.toNat_and, Nat.and_two_pow_sub_one_eq_mod hi.toNat 4]
  have hb := lo.isLt
  rw [pairValue, pairHighMask, ← BitVec.add_eq_or_of_and_eq_zero _ _ h]
  simp only [BitVec.toNat_add, BitVec.toNat_shiftLeft, BitVec.toNat_setWidth, hm, Nat.shiftLeft_eq]
  omega

theorem pairValue14_toNat (hi lo : Byte) : (pairValue .w14 hi lo).toNat = hi.toNat % 64 * 256 + lo.toNat := by
  have h : ((hi &&& 0x3F#8).setWidth 16 <<< 8) &&& lo.setWidth 16 = 0#16 := by
    ext i hi'
    simp only [BitVec.getElem_and, BitVec.getElem_shiftLeft, BitVec.getElem_setWidth, BitVec.getElem_zero]
    by_cases hlt : i < 8
    · simp [hlt]
    · simp [BitVec.getLsbD_of_ge lo i (by omega)]
  have hm : (hi &&& 0x3F#8).toNat = hi.toNat % 64 := by
    simp [BitVec.toNat_and, Nat.and_two_pow_sub_one_eq_mod hi.toNat 6]
  have hb := lo.isLt
  rw [pairValue, pairHighMask, ← BitVec.add_eq_or_of_and_eq_zero _ _ h]
  simp only [BitVec.toNat_add, BitVec.toNat_shiftLeft, BitVec.toNat_setWidth, hm, Nat.shiftLeft_eq]
  omega

theorem pairLowByte_toNat (v : Half) : (pairLowByte v).toNat = v.toNat % 256 := by
  have h := Nat.and_two_pow_sub_one_eq_mod v.toNat 8
  simp only [pairLowByte, BitVec.toNat_setWidth, BitVec.toNat_and, BitVec.toNat_ofNat]
  norm_num at h ⊢
  omega

theorem pairHighByte12_toNat (v : Half) : (pairHighByte .w12 v).toNat = v.toNat / 256 % 16 := by
  simp [pairHighByte, pairHighMask, BitVec.toNat_and, Nat.and_two_pow_sub_one_eq_mod _ 4, Nat.shiftRight_eq_div_pow]

theorem pairHighByte14_toNat (v : Half) : (pairHighByte .w14 v).toNat = v.toNat / 256 % 64 := by
  simp [pairHighByte, pairHighMask, BitVec.toNat_and, Nat.and_two_pow_sub_one_eq_mod _ 6, Nat.shiftRight_eq_div_pow]

end Sys2Proof.Machine
end

