-- ==== Sys2Proof/Laws/PerInstr.lean ====
section
/-! SUPPORT. Per instruction: the words the encoder writes lie in that instruction's own row of the opcode map (R72). -/

namespace Sys2Proof.Laws.EncodedRow

/-- The word of `i` matches a row of the map that has `i`'s mnemonic. -/
def Statement (i : Instr) : Prop :=
  ∃ r ∈ opcodeMap, rowMatches r (encode i).cmd = true ∧ r.mnemonic = mnemonicOf i

/-- The common proof: the row, its masks by field, and the reserved fields masked to 0. -/
theorem of_row {i : Instr} (r : OpcodeRow) (op ma : Byte) (md : Half) (hr : r ∈ opcodeMap)
    (hp : r.pattern = cmdWord op 0#8 0#16) (hm : r.mask = cmdWord 0xFF#8 ma md)
    (hf : cmdOp (encode i).cmd = op ∧ cmdA (encode i).cmd &&& ma = 0#8 ∧ cmdD (encode i).cmd &&& md = 0#16)
    (hn : r.mnemonic = mnemonicOf i) : Statement i :=
  ⟨r, hr, (rowMatches_iff op ma md hp hm _).2 hf, hn⟩

theorem shiftByte_masked (k : BitVec 4) : shiftByte k &&& 0xF0#8 = 0#8 := by
  revert k; decide

theorem read8 (reg : Byte) : Statement (.read8 reg) :=
  of_row ⟨"READ8", 0x01000000#32, 0xFF00FFFF#32, .reg⟩ 0x01#8 0x00#8 0xFFFF#16 (by decide) (by decide) (by decide)
    (by simp [encode]) rfl

theorem write8 (reg : Byte) (v : Half) : Statement (.write8 reg v) :=
  of_row ⟨"WRITE8", 0x02000000#32, 0xFF000000#32, .regValue⟩ 0x02#8 0x00#8 0x0000#16 (by decide) (by decide) (by decide)
    (by simp [encode]) rfl

theorem read12 (reg : Byte) : Statement (.read12 reg) :=
  of_row ⟨"READ12", 0x03000000#32, 0xFF00FFFF#32, .reg⟩ 0x03#8 0x00#8 0xFFFF#16 (by decide) (by decide) (by decide)
    (by simp [encode]) rfl

theorem read14 (reg : Byte) : Statement (.read14 reg) :=
  of_row ⟨"READ14", 0x04000000#32, 0xFF00FFFF#32, .reg⟩ 0x04#8 0x00#8 0xFFFF#16 (by decide) (by decide) (by decide)
    (by simp [encode]) rfl

theorem write12 (reg : Byte) (v : Half) : Statement (.write12 reg v) :=
  of_row ⟨"WRITE12", 0x05000000#32, 0xFF000000#32, .regValue⟩ 0x05#8 0x00#8 0x0000#16 (by decide) (by decide) (by decide)
    (by simp [encode]) rfl

theorem write14 (reg : Byte) (v : Half) : Statement (.write14 reg v) :=
  of_row ⟨"WRITE14", 0x06000000#32, 0xFF000000#32, .regValue⟩ 0x06#8 0x00#8 0x0000#16 (by decide) (by decide) (by decide)
    (by simp [encode]) rfl

theorem setbf (shift : BitVec 4) (cur : Half) (mask : Half) (new : Half) : Statement (.setbf shift cur mask new) :=
  of_row ⟨"SETBF", 0x07000000#32, 0xFFF00000#32, .setBitfield⟩ 0x07#8 0xF0#8 0x0000#16 (by decide) (by decide) (by decide)
    (by simp [encode, shiftByte_masked]) rfl

theorem getbf (shift : BitVec 4) (word : Half) (mask : Half) : Statement (.getbf shift word mask) :=
  of_row ⟨"GETBF", 0x08000000#32, 0xFFF00000#32, .getBitfield⟩ 0x08#8 0xF0#8 0x0000#16 (by decide) (by decide) (by decide)
    (by simp [encode, shiftByte_masked]) rfl

theorem setPm (v : Half) : Statement (.setPm v) :=
  of_row ⟨"SET_PM", 0x10000000#32, 0xFFFF0000#32, .value⟩ 0x10#8 0xFF#8 0x0000#16 (by decide) (by decide) (by decide)
    (by simp [encode]) rfl

theorem getPm : Statement (.getPm) :=
  of_row ⟨"GET_PM", 0x11000000#32, 0xFFFFFFFF#32, .bare⟩ 0x11#8 0xFF#8 0xFFFF#16 (by decide) (by decide) (by decide)
    (by simp [encode]) rfl

theorem setHyst (v : Half) : Statement (.setHyst v) :=
  of_row ⟨"SET_HYST", 0x12000000#32, 0xFFFF0000#32, .value⟩ 0x12#8 0xFF#8 0x0000#16 (by decide) (by decide) (by decide)
    (by simp [encode]) rfl

theorem getHyst : Statement (.getHyst) :=
  of_row ⟨"GET_HYST", 0x13000000#32, 0xFFFFFFFF#32, .bare⟩ 0x13#8 0xFF#8 0xFFFF#16 (by decide) (by decide) (by decide)
    (by simp [encode]) rfl

theorem setOuts (v : Half) : Statement (.setOuts v) :=
  of_row ⟨"SET_OUTS", 0x14000000#32, 0xFFFF0000#32, .value⟩ 0x14#8 0xFF#8 0x0000#16 (by decide) (by decide) (by decide)
    (by simp [encode]) rfl

theorem getOuts : Statement (.getOuts) :=
  of_row ⟨"GET_OUTS", 0x15000000#32, 0xFFFFFFFF#32, .bare⟩ 0x15#8 0xFF#8 0xFFFF#16 (by decide) (by decide) (by decide)
    (by simp [encode]) rfl

theorem setPwmf (v : Half) : Statement (.setPwmf v) :=
  of_row ⟨"SET_PWMF", 0x16000000#32, 0xFFFF0000#32, .value⟩ 0x16#8 0xFF#8 0x0000#16 (by decide) (by decide) (by decide)
    (by simp [encode]) rfl

theorem getPwmf : Statement (.getPwmf) :=
  of_row ⟨"GET_PWMF", 0x17000000#32, 0xFFFFFFFF#32, .bare⟩ 0x17#8 0xFF#8 0xFFFF#16 (by decide) (by decide) (by decide)
    (by simp [encode]) rfl

theorem setSf (v : Half) : Statement (.setSf v) :=
  of_row ⟨"SET_SF", 0x18000000#32, 0xFFFF0000#32, .value⟩ 0x18#8 0xFF#8 0x0000#16 (by decide) (by decide) (by decide)
    (by simp [encode]) rfl

theorem getSf : Statement (.getSf) :=
  of_row ⟨"GET_SF", 0x19000000#32, 0xFFFFFFFF#32, .bare⟩ 0x19#8 0xFF#8 0xFFFF#16 (by decide) (by decide) (by decide)
    (by simp [encode]) rfl

theorem setFth (v : Half) : Statement (.setFth v) :=
  of_row ⟨"SET_FTH", 0x1A000000#32, 0xFFFF0000#32, .value⟩ 0x1A#8 0xFF#8 0x0000#16 (by decide) (by decide) (by decide)
    (by simp [encode]) rfl

theorem getFth : Statement (.getFth) :=
  of_row ⟨"GET_FTH", 0x1B000000#32, 0xFFFFFFFF#32, .bare⟩ 0x1B#8 0xFF#8 0xFFFF#16 (by decide) (by decide) (by decide)
    (by simp [encode]) rfl

theorem setWd (v : Half) : Statement (.setWd v) :=
  of_row ⟨"SET_WD", 0x1C000000#32, 0xFFFF0000#32, .value⟩ 0x1C#8 0xFF#8 0x0000#16 (by decide) (by decide) (by decide)
    (by simp [encode]) rfl

theorem getWd : Statement (.getWd) :=
  of_row ⟨"GET_WD", 0x1D000000#32, 0xFFFFFFFF#32, .bare⟩ 0x1D#8 0xFF#8 0xFFFF#16 (by decide) (by decide) (by decide)
    (by simp [encode]) rfl

theorem getConf : Statement (.getConf) :=
  of_row ⟨"GET_CONF", 0x1E000000#32, 0xFFFFFFFF#32, .bare⟩ 0x1E#8 0xFF#8 0xFFFF#16 (by decide) (by decide) (by decide)
    (by simp [encode]) rfl

theorem setConf (v : Half) : Statement (.setConf v) :=
  of_row ⟨"SET_CONF", 0x1F000000#32, 0xFFFF0000#32, .value⟩ 0x1F#8 0xFF#8 0x0000#16 (by decide) (by decide) (by decide)
    (by simp [encode]) rfl

theorem getZmco : Statement (.getZmco) :=
  of_row ⟨"GET_ZMCO", 0x20000000#32, 0xFFFFFFFF#32, .bare⟩ 0x20#8 0xFF#8 0xFFFF#16 (by decide) (by decide) (by decide)
    (by simp [encode]) rfl

theorem getZpos : Statement (.getZpos) :=
  of_row ⟨"GET_ZPOS", 0x21000000#32, 0xFFFFFFFF#32, .bare⟩ 0x21#8 0xFF#8 0xFFFF#16 (by decide) (by decide) (by decide)
    (by simp [encode]) rfl

theorem setZpos (v : Half) : Statement (.setZpos v) :=
  of_row ⟨"SET_ZPOS", 0x22000000#32, 0xFFFF0000#32, .value⟩ 0x22#8 0xFF#8 0x0000#16 (by decide) (by decide) (by decide)
    (by simp [encode]) rfl

theorem getMpos : Statement (.getMpos) :=
  of_row ⟨"GET_MPOS", 0x23000000#32, 0xFFFFFFFF#32, .bare⟩ 0x23#8 0xFF#8 0xFFFF#16 (by decide) (by decide) (by decide)
    (by simp [encode]) rfl

theorem setMpos (v : Half) : Statement (.setMpos v) :=
  of_row ⟨"SET_MPOS", 0x24000000#32, 0xFFFF0000#32, .value⟩ 0x24#8 0xFF#8 0x0000#16 (by decide) (by decide) (by decide)
    (by simp [encode]) rfl

theorem getMang : Statement (.getMang) :=
  of_row ⟨"GET_MANG", 0x25000000#32, 0xFFFFFFFF#32, .bare⟩ 0x25#8 0xFF#8 0xFFFF#16 (by decide) (by decide) (by decide)
    (by simp [encode]) rfl

theorem setMang (v : Half) : Statement (.setMang v) :=
  of_row ⟨"SET_MANG", 0x26000000#32, 0xFFFF0000#32, .value⟩ 0x26#8 0xFF#8 0x0000#16 (by decide) (by decide) (by decide)
    (by simp [encode]) rfl

theorem rawAngle : Statement (.rawAngle) :=
  of_row ⟨"RAW_ANGLE", 0x30000000#32, 0xFFFFFFFF#32, .bare⟩ 0x30#8 0xFF#8 0xFFFF#16 (by decide) (by decide) (by decide)
    (by simp [encode]) rfl

theorem angle : Statement (.angle) :=
  of_row ⟨"ANGLE", 0x31000000#32, 0xFFFFFFFF#32, .bare⟩ 0x31#8 0xFF#8 0xFFFF#16 (by decide) (by decide) (by decide)
    (by simp [encode]) rfl

theorem effAngle : Statement (.effAngle) :=
  of_row ⟨"EFF_ANGLE", 0x32000000#32, 0xFFFFFFFF#32, .bare⟩ 0x32#8 0xFF#8 0xFFFF#16 (by decide) (by decide) (by decide)
    (by simp [encode]) rfl

theorem setOffsetRaw (v : Half) : Statement (.setOffsetRaw v) :=
  of_row ⟨"SET_OFFSET_RAW", 0x33000000#32, 0xFFFF0000#32, .value⟩ 0x33#8 0xFF#8 0x0000#16 (by decide) (by decide) (by decide)
    (by simp [encode]) rfl

theorem getOffsetRaw : Statement (.getOffsetRaw) :=
  of_row ⟨"GET_OFFSET_RAW", 0x34000000#32, 0xFFFFFFFF#32, .bare⟩ 0x34#8 0xFF#8 0xFFFF#16 (by decide) (by decide) (by decide)
    (by simp [encode]) rfl

theorem setOffsetCdeg (c : Word) : Statement (.setOffsetCdeg c) :=
  of_row ⟨"SET_OFFSET_CDEG", 0x35000000#32, 0xFFFFFFFF#32, .centidegrees⟩ 0x35#8 0xFF#8 0xFFFF#16 (by decide) (by decide) (by decide)
    (by simp [encode]) rfl

theorem getOffsetDeg : Statement (.getOffsetDeg) :=
  of_row ⟨"GET_OFFSET_DEG", 0x36000000#32, 0xFFFFFFFF#32, .bare⟩ 0x36#8 0xFF#8 0xFFFF#16 (by decide) (by decide) (by decide)
    (by simp [encode]) rfl

theorem toDeg (v : Half) : Statement (.toDeg v) :=
  of_row ⟨"TO_DEG", 0x37000000#32, 0xFFFF0000#32, .value⟩ 0x37#8 0xFF#8 0x0000#16 (by decide) (by decide) (by decide)
    (by simp [encode]) rfl

theorem wrapDelta (cur : Half) (last : Word) : Statement (.wrapDelta cur last) :=
  of_row ⟨"WRAP_DELTA", 0x38000000#32, 0xFFFF0000#32, .curLast⟩ 0x38#8 0xFF#8 0x0000#16 (by decide) (by decide) (by decide)
    (by simp [encode]) rfl

theorem speedSample (now : Word) : Statement (.speedSample now) :=
  of_row ⟨"SPEED_SAMPLE", 0x39000000#32, 0xFFFFFFFF#32, .timestamp⟩ 0x39#8 0xFF#8 0xFFFF#16 (by decide) (by decide) (by decide)
    (by simp [encode]) rfl

theorem readStatusFlags : Statement (.readStatusFlags) :=
  of_row ⟨"READ_STATUS_FLAGS", 0x40000000#32, 0xFFFFFFFF#32, .bare⟩ 0x40#8 0xFF#8 0xFFFF#16 (by decide) (by decide) (by decide)
    (by simp [encode]) rfl

theorem readAgc : Statement (.readAgc) :=
  of_row ⟨"READ_AGC", 0x41000000#32, 0xFFFFFFFF#32, .bare⟩ 0x41#8 0xFF#8 0xFFFF#16 (by decide) (by decide) (by decide)
    (by simp [encode]) rfl

theorem readMagnitude : Statement (.readMagnitude) :=
  of_row ⟨"READ_MAGNITUDE", 0x42000000#32, 0xFFFFFFFF#32, .bare⟩ 0x42#8 0xFF#8 0xFFFF#16 (by decide) (by decide) (by decide)
    (by simp [encode]) rfl

theorem probe : Statement (.probe) :=
  of_row ⟨"PROBE", 0x50000000#32, 0xFFFFFFFF#32, .bare⟩ 0x50#8 0xFF#8 0xFFFF#16 (by decide) (by decide) (by decide)
    (by simp [encode]) rfl

theorem getAddress : Statement (.getAddress) :=
  of_row ⟨"GET_ADDRESS", 0x51000000#32, 0xFFFFFFFF#32, .bare⟩ 0x51#8 0xFF#8 0xFFFF#16 (by decide) (by decide) (by decide)
    (by simp [encode]) rfl

theorem setAddress (v : Half) : Statement (.setAddress v) :=
  of_row ⟨"SET_ADDRESS", 0x52000000#32, 0xFFFF0000#32, .value⟩ 0x52#8 0xFF#8 0x0000#16 (by decide) (by decide) (by decide)
    (by simp [encode]) rfl

theorem getLastError : Statement (.getLastError) :=
  of_row ⟨"GET_LAST_ERROR", 0x53000000#32, 0xFFFFFFFF#32, .bare⟩ 0x53#8 0xFF#8 0xFFFF#16 (by decide) (by decide) (by decide)
    (by simp [encode]) rfl

end Sys2Proof.Laws.EncodedRow
end

