-- ==== Sys2Proof/Tests/Slice0.lean ====
section
/-! SUPPORT. The model's own tests: ill-formed terms the checks refuse, words written out from `30_encoding.md` R72, the
vectors of `95_test_vectors.md`, and a witness for every hypothesis of the obligations. -/

namespace Sys2Proof.Tests

open Sys2Proof Sys2Proof.Machine Sys2Proof.Claims

/-! ## Small states -/

/-- A block over a register file, nothing overridden (R64). -/
def block (v : Variant) (dev : Memory) : State :=
  { State.resetWith (defaultParams v) with sensor := .regFile dev false }

/-- The BASE block the vectors use. -/
def base (dev : Memory) : State := block .base dev

/-- `n` transactions succeed, then one answers `code`. -/
def failing (n : Nat) (code : Byte) (dev : Memory) : State :=
  { base dev with answers := List.replicate n ⟨none, none⟩ ++ [⟨some code, none⟩] }

/-- The next state, if there is one. -/
def nextOf : Outcome → Option State
  | .next t => some t
  | .fault _ => none
  | .refused _ => none

/-- The response of one command: `STATUS`, `RESULT`, `RESULT2`. -/
def answer (i : Instr) (s : State) : Option (Status × Nat × Nat) :=
  ((nextOf (exec i s)).bind State.response).map fun r => (r.status, r.result.toNat, r.result2.toNat)

/-- `STATUS` and `LAST_ERR` after one command. -/
def outcome (i : Instr) (s : State) : Option (Option Status × Nat) :=
  (nextOf (exec i s)).map fun t => (t.response.map Response.status, t.lastErr.toNat)

/-- The Transport calls of one command from a state with no history. -/
def traffic (i : Instr) (s : State) : Option (List Event) := (nextOf (exec i s)).map State.history

/-- The register file's byte at `a` after one command. -/
def byteAfter (i : Instr) (s : State) (a : Nat) : Option Byte :=
  match (nextOf (exec i s)).map State.sensor with
  | some (.regFile dev _) => some (dev.read a)
  | _ => none

/-- `OFFSET` after one command. -/
def offsetAfter (i : Instr) (s : State) : Option Nat := (nextOf (exec i s)).map fun t => t.offset.toNat

/-- `HIST` after one command. -/
def histAfter (i : Instr) (s : State) : Option (Option Sample) := (nextOf (exec i s)).map State.hist

/-- The events of a byte read of `reg` at 0x36 that answered `b`. -/
def readEvents (reg b : Byte) : List Event := [.sel 0x36#7 reg 0#8, .req 0x36#7 1 0#8, .rd b]

/-! ## Ill-formed terms are refused -/

theorem test_wf_refuses_setAddress_on_base : (Instr.setAddress 0x41#16).wf .base = false := by decide
theorem test_wf_accepts_setAddress_on_addressable : (Instr.setAddress 0x41#16).wf .addressable = true := by decide
theorem test_wf_refuses_field_over_byte_end :
    (ConfLayout.wf { defaultLayout with fth := ⟨.high, 6⟩ }) = false := by decide
theorem test_wf_refuses_overlapping_fields :
    (ConfLayout.wf { defaultLayout with hyst := ⟨.low, 1⟩ }) = false := by decide
/-- The model's choice (log 22): a field at bits 7:6 of byte 0x07. -/
theorem test_wf_accepts_field_at_unused_bits :
    (ConfLayout.wf { defaultLayout with sf := ⟨.high, 6⟩ }) = true := by decide
theorem test_wf_refuses_two_bit_mask :
    (StatusMasks.wf { defaultStatusMasks with magnetTooWeak := 0x18#8 }) = false := by decide
theorem test_wf_refuses_zero_mask :
    (StatusMasks.wf { defaultStatusMasks with magnetTooWeak := 0x00#8 }) = false := by decide
theorem test_wf_refuses_equal_masks :
    (StatusMasks.wf { defaultStatusMasks with magnetTooWeak := 0x08#8 }) = false := by decide
theorem test_wf_refuses_tsw_out_of_range :
    (Params.wf { defaultParams .base with tsw := 0 }) = false ∧
    (Params.wf { defaultParams .base with tsw := 33 }) = false := by decide
theorem test_wf_refuses_zero_tick :
    (Params.wf { defaultParams .base with tickNum := 0 }) = false ∧
    (Params.wf { defaultParams .base with tickDen := 0 }) = false := by decide
theorem test_wf_refuses_tolerance_over_999 :
    (Params.wf { defaultParams .base with offsetTolCdeg := 1000 }) = false := by decide
theorem test_wf_accepts_defaults :
    (defaultParams .base).wf = true ∧ (defaultParams .addressable).wf = true := by decide
theorem test_assembler_refuses_operands_that_do_not_fit :
    assemble "READ8" [0x100] = none ∧ assemble "SETBF" [16, 0, 0, 0] = none ∧ assemble "SET_PM" [0x10000] = none ∧
    assemble "GETBF" [0, 0, 0x10000] = none ∧ assemble "SET_OFFSET_CDEG" [2147483648] = none ∧
    assemble "SET_OFFSET_CDEG" [-2147483649] = none ∧ assemble "PROBE" [0] = none := by decide

/-! ## Decoding: every constructor's word, written out from R72 and R66 -/

/-- One word a family, bit by bit: `OP`, `A`, `D` of R66. -/
theorem test_decode_bits :
    decodeTableWord 32 0b00000011000011000000000000000000 = some (.read12 0x0C#8) ∧
    decodeTableWord 32 0b00010010000000000000000000000001 = some (.setHyst 1#16) ∧
    decodeTableWord 32 0b00100110000000000000100000000000 = some (.setMang 0x0800#16) ∧
    decodeTableWord 32 0b00110111000000000000010000000000 = some (.toDeg 0x0400#16) ∧
    decodeTableWord 32 0b01000010000000000000000000000000 = some .readMagnitude ∧
    decodeTableWord 32 0b01010011000000000000000000000000 = some .getLastError := by decide

theorem test_decode_codec :
    decodeTableWord 32 0x011A0000 = some (.read8 0x1A#8) ∧
    decodeTableWord 32 0x02080003 = some (.write8 0x08#8 0x0003#16) ∧
    decodeTableWord 32 0x030C0000 = some (.read12 0x0C#8) ∧
    decodeTableWord 32 0x04070000 = some (.read14 0x07#8) ∧
    decodeTableWord 32 0x05010ABC = some (.write12 0x01#8 0x0ABC#16) ∧
    decodeTableWord 32 0x06072345 = some (.write14 0x07#8 0x2345#16) ∧
    decodeTableWord 64 0x0005000307020004 = some (.setbf 2#4 0x0004#16 0x0003#16 0x0005#16) ∧
    decodeTableWord 64 0xABCDFFFF0800BEEF = some (.getbf 0#4 0xBEEF#16 0xFFFF#16) := by decide

theorem test_decode_config_setters :
    decodeTableWord 32 0x10000003 = some (.setPm 3#16) ∧ decodeTableWord 32 0x12000001 = some (.setHyst 1#16) ∧
    decodeTableWord 32 0x14000002 = some (.setOuts 2#16) ∧ decodeTableWord 32 0x16000003 = some (.setPwmf 3#16) ∧
    decodeTableWord 32 0x18000002 = some (.setSf 2#16) ∧ decodeTableWord 32 0x1A000007 = some (.setFth 7#16) ∧
    decodeTableWord 32 0x1C000001 = some (.setWd 1#16) ∧
    decodeTableWord 32 0x1F003FEF = some (.setConf 0x3FEF#16) := by decide

theorem test_decode_config_getters :
    decodeTableWord 32 0x11000000 = some .getPm ∧ decodeTableWord 32 0x13000000 = some .getHyst ∧
    decodeTableWord 32 0x15000000 = some .getOuts ∧ decodeTableWord 32 0x17000000 = some .getPwmf ∧
    decodeTableWord 32 0x19000000 = some .getSf ∧ decodeTableWord 32 0x1B000000 = some .getFth ∧
    decodeTableWord 32 0x1D000000 = some .getWd ∧ decodeTableWord 32 0x1E000000 = some .getConf := by decide

theorem test_decode_positions :
    decodeTableWord 32 0x20000000 = some .getZmco ∧ decodeTableWord 32 0x21000000 = some .getZpos ∧
    decodeTableWord 32 0x22000ABC = some (.setZpos 0x0ABC#16) ∧ decodeTableWord 32 0x23000000 = some .getMpos ∧
    decodeTableWord 32 0x24000FFF = some (.setMpos 0x0FFF#16) ∧ decodeTableWord 32 0x25000000 = some .getMang ∧
    decodeTableWord 32 0x26000000 = some (.setMang 0#16) := by decide

theorem test_decode_angles :
    decodeTableWord 32 0x30000000 = some .rawAngle ∧ decodeTableWord 32 0x31000000 = some .angle ∧
    decodeTableWord 32 0x32000000 = some .effAngle ∧ decodeTableWord 32 0x33000C00 = some (.setOffsetRaw 0x0C00#16) ∧
    decodeTableWord 32 0x34000000 = some .getOffsetRaw ∧
    decodeTableWord 64 0xFFFFDCD835000000 = some (.setOffsetCdeg 0xFFFFDCD8#32) ∧
    decodeTableWord 32 0x36000000 = some .getOffsetDeg ∧ decodeTableWord 32 0x37000400 = some (.toDeg 0x0400#16) ∧
    decodeTableWord 64 0x00000FFA38000005 = some (.wrapDelta 5#16 0x0FFA#32) ∧
    decodeTableWord 64 0x000F424039000000 = some (.speedSample 1000000#32) := by decide

theorem test_decode_status_and_handle :
    decodeTableWord 32 0x40000000 = some .readStatusFlags ∧ decodeTableWord 32 0x41000000 = some .readAgc ∧
    decodeTableWord 32 0x42000000 = some .readMagnitude ∧ decodeTableWord 32 0x50000000 = some .probe ∧
    decodeTableWord 32 0x51000000 = some .getAddress ∧ decodeTableWord 32 0x52000041 = some (.setAddress 0x41#16) ∧
    decodeTableWord 32 0x53000000 = some .getLastError := by decide

/-- V1 to V8: words outside the map, by cause. -/
theorem test_decode_rejects_by_name :
    decode .base ⟨0x00000000#32, 0#32⟩ = .illegal .reservedOpcode ∧
    decode .base ⟨0x09000000#32, 0#32⟩ = .illegal .reservedOpcode ∧
    decode .base ⟨0xFF123456#32, 0#32⟩ = .illegal .reservedOpcode ∧
    decode .base ⟨0x03010001#32, 0#32⟩ = .illegal .reservedField ∧
    decode .base ⟨0x11000001#32, 0#32⟩ = .illegal .reservedField ∧
    decode .base ⟨0x10010004#32, 0#32⟩ = .illegal .reservedField ∧
    decode .base ⟨0x07100000#32, 0#32⟩ = .illegal .reservedField ∧
    decode .base ⟨0x52000041#32, 0#32⟩ = .illegal .absentOnBase := by decide

/-- P2, P3, P4: assembly lines and the words the programs give for them. -/
theorem test_assemble_lines :
    assembleLine "SETBF 2, 0x0003, 0x3, 2" = some ⟨0x07020003#32, 0x00020003#32⟩ ∧
    assembleLine "SET_OFFSET_CDEG -9000" = some ⟨0x35000000#32, 0xFFFFDCD8#32⟩ ∧
    assembleLine "WRITE12 0x0C, 4000" = some ⟨0x050C0FA0#32, 0#32⟩ ∧
    assembleLine "WRAP_DELTA 5, 4090" = some ⟨0x38000005#32, 0x00000FFA#32⟩ ∧
    assembleLine "PROBE" = some ⟨0x50000000#32, 0#32⟩ := by decide

/-- The model's choice (log 16): a hexadecimal `c`. -/
theorem test_assemble_hexadecimal_cdeg :
    assembleLine "SET_OFFSET_CDEG 0x2328" = some ⟨0x35000000#32, 0x00002328#32⟩ := by decide

/-! ## Register Codec primitives: V20 to V47 -/

theorem test_read8 : answer (.read8 0x1A#8) (base [(0x1A, 0x80#8)]) = some (.ok, 0x80, 0) := by decide
/-- V24: the request fails; no byte is read. -/
theorem test_read8_request_fails :
    outcome (.read8 0x0B#8) (failing 1 5#8 []) = some (some .busError, 5) ∧
    traffic (.read8 0x0B#8) (failing 1 5#8 []) =
      some [.sel 0x36#7 0x0B#8 0#8, .req 0x36#7 1 5#8] := by decide
theorem test_write8 : byteAfter (.write8 0x08#8 0x03#16) (base []) 0x08 = some 0x03#8 := by decide
theorem test_write8_not_truncated :
    answer (.write8 0x08#8 0x100#16) (base []) = some (.invalidArgument, 0, 0) := by decide
theorem test_read12_discards_high_nibble :
    answer (.read12 0x0C#8) (base [(0x0C, 0xAB#8), (0x0D, 0xCD#8)]) = some (.ok, 0xBCD, 0) := by decide
/-- V30, V31: the highest legal base address. -/
theorem test_read12_burn_boundary :
    answer (.read12 0xFE#8) (base []) = some (.invalidArgument, 0, 0) ∧
    answer (.read12 0xFD#8) (base [(0xFD, 0x01#8), (0xFE, 0x02#8)]) = some (.ok, 0x102, 0) := by decide
theorem test_read14_discards_two_bits :
    answer (.read14 0x07#8) (base [(0x07, 0xFF#8), (0x08, 0x12#8)]) = some (.ok, 0x3F12, 0) := by decide
theorem test_write12_order :
    traffic (.write12 0x01#8 0x0ABC#16) (base []) =
      some [.wr 0x36#7 0x01#8 0x0A#8 0#8, .wr 0x36#7 0x02#8 0xBC#8 0#8] := by decide
/-- V37: the second write fails; the first stays written. -/
theorem test_write12_second_fails :
    outcome (.write12 0x01#8 0x0ABC#16) (failing 1 3#8 []) = some (some .busError, 3) ∧
    byteAfter (.write12 0x01#8 0x0ABC#16) (failing 1 3#8 []) 0x01 = some 0x0A#8 ∧
    byteAfter (.write12 0x01#8 0x0ABC#16) (failing 1 3#8 []) 0x02 = some 0x00#8 := by decide
/-- V39: WRITE14 checks the width only. -/
theorem test_write14_writes_invalid_outs :
    byteAfter (.write14 0x07#8 0x0030#16) (base []) 0x08 = some 0x30#8 := by decide
theorem test_write14_over_14_bits :
    answer (.write14 0x07#8 0x4000#16) (base []) = some (.invalidArgument, 0, 0) := by decide
theorem test_setbf_cuts_new_to_mask :
    answer (.setbf 4#4 0xFFFF#16 0x3#16 0x5#16) (base []) = some (.ok, 0xFFDF, 0) := by decide
theorem test_setbf_loses_bits_past_15 :
    answer (.setbf 15#4 0x0000#16 0x3#16 0x3#16) (base []) = some (.ok, 0x8000, 0) := by decide
theorem test_getbf : answer (.getbf 2#4 0x000B#16 0x3#16) (base []) = some (.ok, 2, 0) := by decide

/-! ## Configuration bitfields: V60 to V91 -/

theorem test_setPm : byteAfter (.setPm 3#16) (base [(0x08, 0x0C#8)]) 0x08 = some 0x0F#8 := by decide
/-- V72, V73: the read fails and nothing is written; the write fails. -/
theorem test_setPm_fails :
    traffic (.setPm 1#16) (failing 1 6#8 []) = some [.sel 0x36#7 0x08#8 0#8, .req 0x36#7 1 6#8] ∧
    traffic (.setPm 1#16) (failing 2 7#8 []) =
      some (readEvents 0x08#8 0x00#8 ++ [.wr 0x36#7 0x08#8 0x01#8 7#8]) := by decide
theorem test_setHyst_keeps_pm : byteAfter (.setHyst 1#16) (base [(0x08, 0x03#8)]) 0x08 = some 0x07#8 := by decide
/-- V74: an invalid OUTS is written back as read. -/
theorem test_setHyst_keeps_invalid_outs :
    byteAfter (.setHyst 0#16) (base [(0x08, 0x3C#8)]) 0x08 = some 0x30#8 := by decide
theorem test_setOuts : byteAfter (.setOuts 2#16) (base [(0x08, 0xFF#8)]) 0x08 = some 0xEF#8 := by decide
theorem test_setOuts_three_rejected :
    answer (.setOuts 3#16) (base []) = some (.invalidArgument, 0, 0) ∧
    traffic (.setOuts 3#16) (base []) = some [] := by decide
theorem test_setPwmf : byteAfter (.setPwmf 3#16) (base []) 0x08 = some 0xC0#8 := by decide
theorem test_setSf_keeps_unused_bits : byteAfter (.setSf 2#16) (base [(0x07, 0xC0#8)]) 0x07 = some 0xC2#8 := by decide
theorem test_setFth : byteAfter (.setFth 7#16) (base []) 0x07 = some 0x1C#8 := by decide
theorem test_setFth_eight_rejected : answer (.setFth 8#16) (base []) = some (.invalidArgument, 0, 0) := by decide
theorem test_setWd : byteAfter (.setWd 1#16) (base [(0x07, 0x1F#8)]) 0x07 = some 0x3F#8 := by decide
theorem test_setWd_two_rejected : answer (.setWd 2#16) (base []) = some (.invalidArgument, 0, 0) := by decide
theorem test_getPm : answer .getPm (base [(0x08, 0x0F#8)]) = some (.ok, 3, 0) := by decide
theorem test_getHyst : answer .getHyst (base [(0x08, 0x07#8)]) = some (.ok, 1, 0) := by decide
theorem test_getOuts_unvalidated : answer .getOuts (base [(0x08, 0x30#8)]) = some (.ok, 3, 0) := by decide
theorem test_getPwmf : answer .getPwmf (base [(0x08, 0xC0#8)]) = some (.ok, 3, 0) := by decide
theorem test_getSf : answer .getSf (base [(0x07, 0xC2#8)]) = some (.ok, 2, 0) := by decide
theorem test_getFth : answer .getFth (base [(0x07, 0x3F#8)]) = some (.ok, 7, 0) := by decide
theorem test_getWd : answer .getWd (base [(0x07, 0xDF#8)]) = some (.ok, 0, 0) := by decide
theorem test_getConf : answer .getConf (base [(0x07, 0xC2#8), (0x08, 0xEF#8)]) = some (.ok, 0x02EF, 0) := by decide
theorem test_setConf :
    traffic (.setConf 0x3FEF#16) (base []) =
      some [.wr 0x36#7 0x07#8 0x3F#8 0#8, .wr 0x36#7 0x08#8 0xEF#8 0#8] := by decide
theorem test_setConf_rejects :
    answer (.setConf 0x0030#16) (base []) = some (.invalidArgument, 0, 0) ∧
    answer (.setConf 0x4000#16) (base []) = some (.invalidArgument, 0, 0) := by decide

/-! ## Position registers: V100 to V107 -/

theorem test_getZmco : answer .getZmco (base [(0x00, 0x02#8)]) = some (.ok, 2, 0) := by decide
theorem test_getZpos_big_endian :
    answer .getZpos (base [(0x01, 0xFA#8), (0x02, 0xBC#8)]) = some (.ok, 0xABC, 0) := by decide
theorem test_setZpos :
    traffic (.setZpos 0x0ABC#16) (base []) =
      some [.wr 0x36#7 0x01#8 0x0A#8 0#8, .wr 0x36#7 0x02#8 0xBC#8 0#8] := by decide
theorem test_getMpos : answer .getMpos (base [(0x03, 0x01#8)]) = some (.ok, 256, 0) := by decide
theorem test_setMpos :
    traffic (.setMpos 4095#16) (base []) =
      some [.wr 0x36#7 0x03#8 0x0F#8 0#8, .wr 0x36#7 0x04#8 0xFF#8 0#8] := by decide
theorem test_setMpos_rejects : answer (.setMpos 4096#16) (base []) = some (.invalidArgument, 0, 0) := by decide
theorem test_getMang : answer .getMang (base [(0x05, 0x08#8)]) = some (.ok, 2048, 0) := by decide
theorem test_setMang :
    traffic (.setMang 0#16) (base []) =
      some [.wr 0x36#7 0x05#8 0x00#8 0#8, .wr 0x36#7 0x06#8 0x00#8 0#8] := by decide

/-! ## Angle, offset, wraparound, samples: V120 to V188 -/

theorem test_rawAngle_ignores_offset :
    answer .rawAngle { base [(0x0C, 0x0F#8), (0x0D, 0xFA#8)] with offset := 100#12 } = some (.ok, 4090, 0) := by decide
theorem test_angle_ignores_offset :
    answer .angle { base [(0x0E, 0x04#8)] with offset := 100#12 } = some (.ok, 1024, 0) := by decide
theorem test_effAngle_adds :
    answer .effAngle { base [(0x0C, 0x0F#8), (0x0D, 0xA0#8)] with offset := 200#12 } = some (.ok, 104, 0) := by decide
theorem test_effAngle_wraps :
    answer .effAngle { base [(0x0C, 0x0F#8), (0x0D, 0xFF#8)] with offset := 1#12 } = some (.ok, 0, 0) := by decide
theorem test_setOffsetRaw : offsetAfter (.setOffsetRaw 3072#16) (base []) = some 3072 := by decide
theorem test_setOffsetRaw_not_wrapped : answer (.setOffsetRaw 4096#16) (base []) = some (.invalidArgument, 0, 0) := by
  decide
theorem test_getOffsetRaw : answer .getOffsetRaw { base [] with offset := 5#12 } = some (.ok, 5, 0) := by decide
/-- V140, V148, V149, V153, V155, V156: rounding and wraparound. -/
theorem test_setOffsetCdeg_rounds :
    offsetAfter (.setOffsetCdeg 0xFFFFDCD8#32) (base []) = some 3072 ∧
    offsetAfter (.setOffsetCdeg 0x00008C9C#32) (base []) = some 0 ∧
    offsetAfter (.setOffsetCdeg 0x00008C9B#32) (base []) = some 4095 ∧
    offsetAfter (.setOffsetCdeg 0xFFFFFFFB#32) (base []) = some 4095 ∧
    offsetAfter (.setOffsetCdeg 0x00003039#32) (base []) = some 1405 ∧
    offsetAfter (.setOffsetCdeg 0xFFFFCFC7#32) (base []) = some 2691 := by decide
/-- V145, V146, V157, V158: the bound and its tolerance. -/
theorem test_setOffsetCdeg_bound :
    answer (.setOffsetCdeg 0xFFFF7360#32) (base []) = some (.ok, 0, 0) ∧
    answer (.setOffsetCdeg 0x00008CA1#32) (base []) = some (.invalidArgument, 0, 0) ∧
    answer (.setOffsetCdeg 0x80000000#32) (base []) = some (.invalidArgument, 0, 0) ∧
    offsetAfter (.setOffsetCdeg 0x00008E94#32)
      { base [] with params := { defaultParams .base with offsetTolCdeg := 500 } } = some 57 := by decide
theorem test_getOffsetDeg : answer .getOffsetDeg { base [] with offset := 3072#12 } = some (.ok, 138240, 0) := by decide
theorem test_toDeg : answer (.toDeg 4095#16) (base []) = some (.ok, 184275, 0) := by decide
theorem test_toDeg_rejects : answer (.toDeg 4096#16) (base []) = some (.invalidArgument, 0, 0) := by decide
/-- V161 to V167: both half turns keep the sign of the plain difference. -/
theorem test_wrapDelta :
    answer (.wrapDelta 5#16 4090#32) (base []) = some (.ok, 11, 0) ∧
    answer (.wrapDelta 2048#16 0#32) (base []) = some (.ok, 0x800, 0) ∧
    answer (.wrapDelta 0#16 2048#32) (base []) = some (.ok, 0xFFFFF800, 0) ∧
    answer (.wrapDelta 2049#16 0#32) (base []) = some (.ok, 0xFFFFF801, 0) ∧
    answer (.wrapDelta 0#16 2049#32) (base []) = some (.ok, 0x7FF, 0) := by decide
theorem test_wrapDelta_rejects :
    answer (.wrapDelta 4096#16 0#32) (base []) = some (.invalidArgument, 0, 0) ∧
    answer (.wrapDelta 0#16 0x10000#32) (base []) = some (.invalidArgument, 0, 0) := by decide
/-- V181, V184, V188: the delta across zero, a timestamp that wraps, a 16-bit timestamp. -/
theorem test_speedSample :
    answer (.speedSample 2000000#32) { base [(0x0D, 5#8)] with hist := some ⟨4090#12, 1000000#32⟩ } =
      some (.ok, 11, 1000000) ∧
    answer (.speedSample 0x10#32) { base [(0x0D, 100#8)] with hist := some ⟨100#12, 0xFFFFFFF0#32⟩ } =
      some (.ok, 0, 32) ∧
    answer (.speedSample 0x10#32)
      { base [(0x0D, 101#8)] with params := { defaultParams .base with tsw := 16 }, hist := some ⟨100#12, 0xFFF0#32⟩ } =
      some (.ok, 1, 32) := by decide
/-- V180, V182, V186: the first sample, a zero time step, a failed read. -/
theorem test_speedSample_hist :
    histAfter (.speedSample 1000000#32) (base [(0x0C, 0x0F#8), (0x0D, 0xFA#8)]) =
      some (some ⟨4090#12, 1000000#32⟩) ∧
    answer (.speedSample 2000000#32) { base [(0x0D, 10#8)] with hist := some ⟨5#12, 2000000#32⟩ } = some (.ok, 0, 0) ∧
    outcome (.speedSample 60#32) { failing 0 2#8 [] with hist := some ⟨100#12, 50#32⟩ } = some (some .busError, 2) ∧
    ((histAfter (.speedSample 60#32) { failing 0 2#8 [] with hist := some ⟨100#12, 50#32⟩ }).bind id).map
      Sample.lastTime = some 60#32 := by decide

/-! ## Status Decoder: V200 to V212 -/

theorem test_readStatusFlags :
    answer .readStatusFlags (base [(0x0B, 0x20#8)]) = some (.ok, 0b001, 0) ∧
    answer .readStatusFlags (base [(0x0B, 0x10#8)]) = some (.ok, 0b010, 0) ∧
    answer .readStatusFlags (base [(0x0B, 0x08#8)]) = some (.ok, 0b100, 0) ∧
    answer .readStatusFlags (base [(0x0B, 0xC7#8)]) = some (.ok, 0b000, 0) := by decide
theorem test_readStatusFlags_fails : outcome .readStatusFlags (failing 1 9#8 []) = some (some .busError, 9) := by decide
theorem test_readAgc : answer .readAgc (base [(0x1A, 0xFF#8)]) = some (.ok, 255, 0) := by decide
theorem test_readMagnitude : answer .readMagnitude (base [(0x1B, 0xF1#8), (0x1C, 0x23#8)]) = some (.ok, 0x123, 0) := by
  decide

/-! ## Device Handle: V220 to V229 -/

theorem test_probe :
    answer .probe (base []) = some (.ok, 1, 0) ∧ traffic .probe (base []) = some [.prb 0x36#7 0#8] := by decide
theorem test_probe_not_connected :
    answer .probe (failing 0 2#8 []) = some (.ok, 0, 0) ∧ outcome .probe (failing 0 2#8 []) = some (some .ok, 2) := by
  decide
theorem test_getAddress :
    answer .getAddress (base []) = some (.ok, 0x36, 0) ∧
    answer .getAddress (block .addressable []) = some (.ok, 0x40, 0) := by decide
theorem test_setAddress :
    (nextOf (exec (.setAddress 0x77#16) (block .addressable []))).map State.addr = some 0x77#7 ∧
    (nextOf (exec (.setAddress 0x08#16) (block .addressable []))).map State.addr = some 0x08#7 := by decide
theorem test_setAddress_rejects :
    answer (.setAddress 0x07#16) (block .addressable []) = some (.invalidArgument, 0, 0) ∧
    answer (.setAddress 0x78#16) (block .addressable []) = some (.invalidArgument, 0, 0) := by decide
theorem test_getLastError :
    answer .getLastError { base [] with lastErr := 3#8 } = some (.ok, 3, 0) ∧
    outcome .getLastError { base [] with lastErr := 3#8 } = some (some .ok, 3) := by decide

/-! ## The step -/

/-- V8: ILLEGAL_COMMAND for a word with opcode 0x52 on BASE; nothing reaches the bus. -/
theorem test_step_illegal :
    ((nextOf (step ((base []).withFetchWord 32 0x52000041))).bind State.response).map Response.status =
      some .illegalCommand ∧
    (nextOf (step ((base []).withFetchWord 32 0x52000041))).map State.history = some [] := by decide
/-- V10: unused `AUX` is ignored. -/
theorem test_step_ignores_unused_aux :
    ((nextOf (step ({ base [] with offset := 5#12 }.withFetchWord 64 0xDEADBEEF34000000))).bind State.response).map
      Response.result = some 5#32 := by decide
/-- V9: the reset machine runs the word placed. -/
theorem test_step_from_reset :
    (nextOf (step (State.reset.withFetchWord 32 0x52000041))).map State.addr = some 0x41#7 := by decide
/-- E5: the host's speed. -/
theorem test_host_speed : speedDeg (defaultParams .base) 11 1000000 = 966796875 / 1000000000 := by
  norm_num [speedDeg, tickSeconds, defaultParams]

/-! ## Witnesses: states and operands that meet the hypotheses of each obligation, clause by clause

Where a clause is a range, the witness stands at its boundary. -/

theorem base_succeed (dev : Memory) (n : Nat) : Succeed (base dev) n := fun _ _ => rfl

theorem failing0 : FailsAt (failing 0 4#8 []) 0 := by unfold FailsAt Succeed; decide
theorem failing1 : FailsAt (failing 1 4#8 []) 1 := by unfold FailsAt Succeed; decide
theorem failing2 : FailsAt (failing 2 4#8 []) 2 := by unfold FailsAt Succeed; decide
theorem failing3 : FailsAt (failing 3 4#8 []) 3 := by unfold FailsAt Succeed; decide

/-- A base state with a command presented. -/
def presented (cmd aux : Word) : State := presentCommand ⟨cmd, aux⟩ (base [])

theorem witness_DecodeInvertsEncode :
    (Instr.setAddress 0x41#16).wf .addressable = true ∧ (Instr.write12 0xFF#8 0xFFFF#16).wf .base = true := by decide

theorem witness_DecodeFollowsOpcodeMap :
    (⟨"SETBF", 0x07000000#32, 0xFFF00000#32, .setBitfield⟩ : OpcodeRow) ∈ opcodeMap ∧
    rowMatches ⟨"SETBF", 0x07000000#32, 0xFFF00000#32, .setBitfield⟩ 0x070FFFFF#32 = true := by decide

theorem witness_DecodedWordIsEncoded :
    decode .base ⟨0x05010ABC#32, 0#32⟩ = .instr (.write12 0x01#8 0x0ABC#16) := by decide

/-- The ends of R71's ranges. -/
theorem witness_ReservedOpcodesAnswerIllegal :
    (presented 0x54000000#32 0#32).commands = ⟨0x54000000#32, 0#32⟩ :: [] ∧
    (cmdOp 0x54000000#32).toNat = 0x54 ∧ reservedOpcode 0x00 ∧ ¬ reservedOpcode 0x01 ∧ ¬ reservedOpcode 0x08 ∧ reservedOpcode 0x09 ∧ reservedOpcode 0x0F ∧
    ¬ reservedOpcode 0x10 ∧ ¬ reservedOpcode 0x26 ∧ reservedOpcode 0x27 ∧ reservedOpcode 0x2F ∧
    ¬ reservedOpcode 0x30 ∧ ¬ reservedOpcode 0x39 ∧ reservedOpcode 0x3A ∧ reservedOpcode 0x3F ∧
    ¬ reservedOpcode 0x40 ∧ ¬ reservedOpcode 0x42 ∧ reservedOpcode 0x43 ∧ reservedOpcode 0x4F ∧
    ¬ reservedOpcode 0x50 ∧ ¬ reservedOpcode 0x53 ∧ reservedOpcode 0x54 ∧ reservedOpcode 0xFF := by
  refine ⟨rfl, rfl, ?_⟩
  simp [reservedOpcode]

/-- One word a clause: `A`, `D`, `A[7:4]` and the unused halves of `AUX`. -/
theorem witness_ReservedFieldsAnswerIllegal :
    (∃ r ∈ opcodeMap, cmdOp 0x10010004#32 = cmdOp r.pattern ∧ aReserved r.form = true ∧ cmdA 0x10010004#32 ≠ 0#8) ∧
    (∃ r ∈ opcodeMap, cmdOp 0x03010001#32 = cmdOp r.pattern ∧ dReserved r.form = true ∧ cmdD 0x03010001#32 ≠ 0#16) ∧
    (∃ r ∈ opcodeMap, cmdOp 0x07100000#32 = cmdOp r.pattern ∧ aHighReserved r.form = true ∧
      aHigh (cmdA 0x07100000#32) ≠ 0#4) ∧
    cmdOp 0x34000000#32 ∉ [0x07#8, 0x08#8, 0x35#8, 0x38#8, 0x39#8] ∧
    cmdOp 0x0800BEEF#32 = 0x08#8 ∧ auxLow 0xABCDFFFF#32 = auxLow 0x0000FFFF#32 := by decide

theorem witness_StepRunsDecodedInstruction :
    (base []).commands = [] ∧
    (presented 0x34000000#32 7#32).commands = ⟨0x34000000#32, 7#32⟩ :: [] ∧
    decode (presented 0x34000000#32 7#32).params.variant ⟨0x34000000#32, 7#32⟩ = .instr .getOffsetRaw ∧
    decode (presented 0x52000041#32 0#32).params.variant ⟨0x52000041#32, 0#32⟩ = .illegal .absentOnBase := by decide

/-- The bounds of R77's fields. -/
theorem witness_AssembledLinesDecode :
    assemble "WRITE8" [0xFF, 0xFFFF] = some ⟨0x02FFFFFF#32, 0#32⟩ ∧
    assemble "SETBF" [15, 0xFFFF, 0xFFFF, 0xFFFF] = some ⟨0x070FFFFF#32, 0xFFFFFFFF#32⟩ ∧
    assemble "SET_OFFSET_CDEG" [-2147483648] = some ⟨0x35000000#32, 0x80000000#32⟩ ∧
    assemble "SPEED_SAMPLE" [4294967295] = some ⟨0x39000000#32, 0xFFFFFFFF#32⟩ := by decide

theorem witness_ByteReadFollowsCallSequence :
    Succeed (base []) 2 ∧ FailsAt (failing 0 4#8 []) 0 ∧ FailsAt (failing 1 4#8 []) 1 :=
  ⟨base_succeed _ _, failing0, failing1⟩

theorem witness_ByteWriteFollowsCallSequence : Succeed (base []) 1 ∧ FailsAt (failing 0 4#8 []) 0 :=
  ⟨base_succeed _ _, failing0⟩

theorem witness_RegisterFileReadAfterWrite :
    (base [(0x00, 1#8), (0xFE, 0x5A#8)]).sensor = .regFile [(0x00, 1#8), (0xFE, 0x5A#8)] false ∧
    Memory.wf [(0x00, 1#8), (0xFE, 0x5A#8)] = true ∧ (base [(0x00, 1#8), (0xFE, 0x5A#8)]).answers = [] ∧
    (0xFE#8 : Byte) ≠ 0xFF#8 ∧ (0x00#8 : Byte) ≠ 0xFF#8 ∧ (0xFF#16 : Half).toNat ≤ 0xFF := by decide

theorem witness_Read8ReturnsByte :
    (0xFE#8 : Byte) ≠ 0xFF#8 ∧ Succeed (base []) 2 ∧ FailsAt (failing 0 4#8 []) 0 ∧ FailsAt (failing 1 4#8 []) 1 :=
  ⟨by decide, base_succeed _ _, failing0, failing1⟩

theorem witness_Write8SendsByte :
    (0xFF < (0x100#16 : Half).toNat) ∧ (0xFE#8 : Byte) ≠ 0xFF#8 ∧ (0xFF#16 : Half).toNat ≤ 0xFF ∧
    Succeed (base []) 1 ∧ FailsAt (failing 0 4#8 []) 0 :=
  ⟨by decide, by decide, by decide, base_succeed _ _, failing0⟩

/-- The four transactions of a pair read, each the first to fail: PositionGettersReadPairs, AngleReadsIgnoreOffset,
EffectiveAngleAddsOffset. -/
theorem witness_PairReadEffect :
    Succeed (base []) 4 ∧ FailsAt (failing 0 4#8 []) 0 ∧ FailsAt (failing 1 4#8 []) 1 ∧
    FailsAt (failing 2 4#8 []) 2 ∧ FailsAt (failing 3 4#8 []) 3 :=
  ⟨base_succeed _ _, failing0, failing1, failing2, failing3⟩

theorem witness_PairReadsAssembleBigEndian :
    0xFE ≤ (0xFE#8 : Byte).toNat ∧ (0xFD#8 : Byte).toNat < 0xFE ∧ Succeed (base []) 4 ∧ FailsAt (failing 3 4#8 []) 3 :=
  ⟨by decide, by decide, base_succeed _ _, failing3⟩

theorem witness_PairWriteEffect :
    Succeed (base []) 2 ∧ FailsAt (failing 0 4#8 []) 0 ∧ FailsAt (failing 1 4#8 []) 1 :=
  ⟨base_succeed _ _, failing0, failing1⟩

theorem witness_PairWritesSplitBigEndian :
    0xFE ≤ (0xFE#8 : Byte).toNat ∧ (0xFD#8 : Byte).toNat < 0xFE ∧ 0x0FFF < (0x1000#16 : Half).toNat ∧
    0x3FFF < (0x4000#16 : Half).toNat ∧ (0x0FFF#16 : Half).toNat ≤ 0x0FFF ∧ (0x3FFF#16 : Half).toNat ≤ 0x3FFF ∧
    Succeed (base []) 2 ∧ FailsAt (failing 0 4#8 []) 0 ∧ FailsAt (failing 1 4#8 []) 1 :=
  ⟨by decide, by decide, by decide, by decide, by decide, by decide, base_succeed _ _, failing0, failing1⟩

/-- The widest mask that is not shifted past bit 15. -/
theorem witness_GetbfInvertsSetbf :
    (0x000F#16 : Half).toNat * 2 ^ (12#4 : BitVec 4).toNat < 2 ^ 16 ∧
    ¬ (0x000F#16 : Half).toNat * 2 ^ (13#4 : BitVec 4).toNat < 2 ^ 16 := by decide

/-- The last value a field accepts and the first it rejects; each transaction failing first. -/
theorem witness_FieldSettersReadModifyWrite :
    fieldValidCount .outs ≤ (3#16 : Half).toNat ∧ (2#16 : Half).toNat < fieldValidCount .outs ∧
    fieldValidCount .pm ≤ (0x100#16 : Half).toNat ∧
    Succeed (base []) 3 ∧ FailsAt (failing 0 4#8 []) 0 ∧ FailsAt (failing 1 4#8 []) 1 ∧ FailsAt (failing 2 4#8 []) 2 :=
  ⟨by decide, by decide, by decide, base_succeed _ _, failing0, failing1, failing2⟩

theorem witness_FieldGettersReturnField :
    Succeed (base []) 2 ∧ FailsAt (failing 0 4#8 []) 0 ∧ FailsAt (failing 1 4#8 []) 1 :=
  ⟨base_succeed _ _, failing0, failing1⟩

/-- P1, step 2: SET_HYST against PM. -/
theorem witness_SettersPreserveOtherFields :
    Field.hyst ≠ Field.pm ∧ (base [(0x08, 0x03#8)]).params.layout.wf = true ∧
    (base [(0x08, 0x03#8)]).sensor = .regFile [(0x08, 0x03#8)] false ∧ Memory.wf [(0x08, 0x03#8)] = true ∧
    (base [(0x08, 0x03#8)]).answers = [] ∧
    ∃ t, exec (setterOf .hyst 2#16) (base [(0x08, 0x03#8)]) = .next t ∧ t.response = some ⟨.ok, 0#32, 0#32⟩ :=
  ⟨by decide, by decide, rfl, by decide, rfl, _, rfl, rfl⟩

theorem witness_ConfWordAccess :
    0x3FFF < (0x4000#16 : Half).toNat ∧ (0x3FFF#16 : Half).toNat ≤ 0x3FFF ∧
    (∃ f, fieldValidCount f ≤ (0x0030#16 : Half).toNat / 2 ^ fieldWordShift (base []).params.layout f % 2 ^ fieldWidth f) ∧
    (∀ f, (0x3FEF#16 : Half).toNat / 2 ^ fieldWordShift (base []).params.layout f % 2 ^ fieldWidth f <
      fieldValidCount f) ∧
    (base []).params.layout = defaultLayout ∧ Succeed (base []) 4 ∧ FailsAt (failing 1 4#8 []) 1 :=
  ⟨by decide, by decide, ⟨.outs, by decide⟩, fun f => by cases f <;> decide, rfl, base_succeed _ _, failing1⟩

theorem witness_DefaultLayoutRejectsOutputModeThree :
    (base []).params.layout = defaultLayout ∧ (0x0030#16 : Half).toNat ≤ 0x3FFF ∧ (0x0030#16 : Half).toNat / 16 % 4 = 3 ∧
    (0x3FEF#16 : Half).toNat ≤ 0x3FFF ∧ (0x3FEF#16 : Half).toNat / 16 % 4 ≠ 3 ∧ Succeed (base []) 2 :=
  ⟨rfl, by decide, by decide, by decide, by decide, base_succeed _ _⟩

/-- The 12-bit operand bound of PositionSettersWritePairs, RawOffsetAccess and DegreeOutputsAreExact. -/
theorem witness_twelve_bit_bound :
    0x0FFF < (0x1000#16 : Half).toNat ∧ (0x0FFF#16 : Half).toNat ≤ 0x0FFF ∧ Succeed (base []) 2 ∧
    FailsAt (failing 1 4#8 []) 1 :=
  ⟨by decide, by decide, base_succeed _ _, failing1⟩

/-- Both ends of the bound on `c`. -/
theorem witness_CentidegreeOffsetIsNearest :
    36000 + (base []).params.offsetTolCdeg < (0x00008CA1#32 : Word).toInt.natAbs ∧
    (0xFFFF7360#32 : Word).toInt.natAbs ≤ 36000 + (base []).params.offsetTolCdeg ∧
    36000 + (base []).params.offsetTolCdeg < (0x80000000#32 : Word).toInt.natAbs := by decide

theorem witness_OffsetRoundTripsModuloTurn :
    (0xFFFFDCD8#32 : Word).toInt.natAbs ≤ 36000 + (base []).params.offsetTolCdeg := by decide

/-- Both operands at their bounds. -/
theorem witness_WrapDeltaIsCongruent : (0x0FFF#16 : Half).toNat ≤ 0x0FFF ∧ (0x0FFF#32 : Word).toNat ≤ 0x0FFF := by decide

/-- A half turn of each sign, and both operands at their bounds. -/
theorem witness_WrapDeltaIsShortestPath :
    (0x0FFF#16 : Half).toNat ≤ 0x0FFF ∧ (0x0FFF#32 : Word).toNat ≤ 0x0FFF ∧ 0x0FFF < (0x1000#16 : Half).toNat ∧
    0x0FFF < (0x1000#32 : Word).toNat ∧ ((2048#16 : Half).toNat : Int) - (0#32 : Word).toNat = 2048 ∧
    ((0#16 : Half).toNat : Int) - (2048#32 : Word).toNat = -2048 := by decide

/-- A small rotation, one at each half turn, and one over it. -/
theorem witness_SmallRotationsAreExact :
    (((4090#32 : Word).toNat : Int) + 11) % 4096 = (5#16 : Half).toNat ∧
    (((0#32 : Word).toNat : Int) + 2048) % 4096 = (2048#16 : Half).toNat ∧
    (((2048#32 : Word).toNat : Int) + -2048) % 4096 = (0#16 : Half).toNat ∧
    (((0#32 : Word).toNat : Int) + 2049) % 4096 = (2049#16 : Half).toNat := by decide

/-- A timestamp at each side of `2^TSW`; the first sample, a zero time step and a non-zero one. -/
theorem witness_SpeedSampleMeasuresAndRecords :
    2 ^ ({ defaultParams .base with tsw := 16 } : Params).tsw ≤ (0x10000#32 : Word).toNat ∧
    (0xFFFFFFFF#32 : Word).toNat < 2 ^ (base []).params.tsw ∧
    Succeed (base []) 4 ∧ FailsAt (failing 0 4#8 []) 0 ∧ FailsAt (failing 3 4#8 []) 3 ∧ (base []).hist = none ∧
    (((2000000#32 : Word).toNat : Int) - (2000000#32 : Word).toNat) % 2 ^ (base []).params.tsw = 0 ∧
    (((0x10#32 : Word).toNat : Int) - (0xFFFFFFF0#32 : Word).toNat) % 2 ^ (base []).params.tsw ≠ 0 :=
  ⟨by decide, by decide, base_succeed _ _, failing0, failing3, rfl, by decide, by decide⟩

/-- P3, step 2: a run of one reported sample, across zero. -/
theorem witness_SpeedSamplesTelescope :
    (defaultParams .base).wf = true ∧
    ∃ t, SampleRun { base [(0x0D, 5#8)] with hist := some ⟨4090#12, 1000000#32⟩ } [(11#32, 1000000#32)] t :=
  ⟨by decide, _, .cons (now := 2000000#32) rfl rfl (by decide) (.nil _)⟩

theorem witness_HostScalesAgree : (defaultParams .base).wf = true ∧ (1000000 : Nat) ≠ 0 ∧ (4095 : Nat) ≤ 4095 := by
  decide

theorem witness_StatusFlagsAreIndependent :
    Succeed (base []) 2 ∧ FailsAt (failing 0 4#8 []) 0 ∧ FailsAt (failing 1 4#8 []) 1 :=
  ⟨base_succeed _ _, failing0, failing1⟩

/-- Both ends of the legal range of bus addresses, and a word with opcode 0x52 on BASE. -/
theorem witness_SetAddressRebinds :
    (block .addressable []).params.variant = .addressable ∧ (0x07#16 : Half).toNat < 0x08 ∧
    0x77 < (0x78#16 : Half).toNat ∧ 0x08 ≤ (0x08#16 : Half).toNat ∧ (0x77#16 : Half).toNat ≤ 0x77 ∧
    (presented 0x52FFFFFF#32 0#32).params.variant = .base ∧
    (presented 0x52FFFFFF#32 0#32).commands = ⟨0x52FFFFFF#32, 0#32⟩ :: [] ∧ cmdOp 0x52FFFFFF#32 = 0x52#8 := by decide

/-- A state with a register file, a sample, and a command that writes `OFFSET`. -/
theorem witness_StepKeepsInvariant :
    ({ presented 0x33000C00#32 0#32 with hist := some ⟨4090#12, 1000000#32⟩ } : State).Inv ∧
    ∃ t, step { presented 0x33000C00#32 0#32 with hist := some ⟨4090#12, 1000000#32⟩ } = .next t :=
  ⟨⟨by decide, by decide, by decide, by decide⟩, _, rfl⟩

theorem witness_ResetHoldsInvariant :
    (defaultParams .base).wf = true ∧ (defaultParams .base).variant = .base ∧
    (defaultParams .addressable).wf = true ∧ (defaultParams .addressable).variant = .addressable := by decide

/-- A step that issues transactions, from a state whose `LAST_ERR` is its history's last status. -/
theorem witness_LastErrorIsLastStatus :
    (presented 0x50000000#32 0#32).lastErr = lastStatus (presented 0x50000000#32 0#32).history ∧
    ∃ t, step (presented 0x50000000#32 0#32) = .next t := ⟨by decide, _, rfl⟩

/-- A step with traffic. -/
theorem witness_BusTrafficStaysAllowed :
    ∃ t, step (presented 0x30000000#32 0#32) = .next t ∧ t.history ≠ [] := ⟨_, rfl, by decide⟩

/-- A command that fails at its second transaction. -/
theorem witness_CommandStopsAtFirstFailure :
    ∃ t, exec .rawAngle (failing 1 4#8 []) = .next t ∧ t.history ≠ [] := ⟨_, rfl, by decide⟩

theorem witness_InvalidArgumentExactly :
    invalidCause (base []).params (.setPm 4#16) ∧ ¬ invalidCause (base []).params (.setPm 3#16) ∧
    ∃ t, exec (.setPm 4#16) (base []) = .next t ∧ t.response = some ⟨.invalidArgument, 0#32, 0#32⟩ :=
  ⟨by simp [invalidCause], by simp [invalidCause], _, rfl, rfl⟩

/-- A command that changes each register. -/
theorem witness_RegistersHaveTheirWriters :
    (∃ t, exec (.setOffsetRaw 7#16) (base []) = .next t ∧ t.offset ≠ (base []).offset) ∧
    (∃ t, exec (.setAddress 0x41#16) (block .addressable []) = .next t ∧ t.addr ≠ (block .addressable []).addr) ∧
    (∃ t, exec (.speedSample 5#32) (base []) = .next t ∧ t.hist ≠ (base []).hist) ∧
    (∃ t, step { presented 0x39000000#32 60#32 with hist := some ⟨100#12, 50#32⟩ } = .next t ∧ t.hist ≠ none) :=
  ⟨⟨_, rfl, by decide⟩, ⟨_, rfl, by decide⟩, ⟨_, rfl, by decide⟩, ⟨_, rfl, by decide⟩⟩

/-- A command that reads the sensor, an offset setter that ends OK, one that does not, and a step. -/
theorem witness_OffsetHasOnlyItsReaders :
    (¬ readsOffset .rawAngle ∧ ¬ setsOffset .rawAngle ∧ (∃ t, exec .rawAngle (base []) = .next t) ∧
      ∃ u, exec .rawAngle { base [] with offset := 7#12 } = .next u) ∧
    (¬ readsOffset (.setOffsetRaw 5#16) ∧ setsOffset (.setOffsetRaw 5#16) ∧
      (∃ t, exec (.setOffsetRaw 5#16) (base []) = .next t ∧ t.response = some ⟨.ok, 0#32, 0#32⟩) ∧
      ∃ u, exec (.setOffsetRaw 5#16) { base [] with offset := 7#12 } = .next u) ∧
    (∃ t, exec (.setOffsetRaw 4096#16) (base []) = .next t ∧ ¬ ∃ r r2, t.response = some ⟨.ok, r, r2⟩) ∧
    (decode .base ⟨0x30000000#32, 0#32⟩ = .instr .rawAngle ∧ (∃ t, step (presented 0x30000000#32 0#32) = .next t) ∧
      ∃ u, step { presented 0x30000000#32 0#32 with offset := 7#12 } = .next u) := by
  refine ⟨⟨by simp [readsOffset], by simp [setsOffset], ⟨_, rfl⟩, _, rfl⟩,
    ⟨by simp [readsOffset], .inl ⟨_, rfl⟩, ⟨_, rfl, rfl⟩, _, rfl⟩, ⟨_, rfl, ?_⟩, by decide, ⟨_, rfl⟩, _, rfl⟩
  rintro ⟨r, r2, h⟩
  exact absurd (congrArg (Option.map Response.status) h) (by decide : some Status.invalidArgument ≠ some Status.ok)

theorem witness_EveryCommandIsAnswered :
    (presented 0xFF123456#32 0#32).commands = ⟨0xFF123456#32, 0#32⟩ :: [] := rfl

end Sys2Proof.Tests
end

section
/-! PROOFS of the statements about the state (`10_state.md`). What bus accesses leave (`Traffic`) and how a command can
end (`Ends`) are each said once for all commands; the claims about the registers follow from these two by cases. -/

namespace Sys2Proof.Machine

open Sys2Proof.Claims

/-! ## Histories -/

/-- The last status of two histories in turn: the second's, or the first's where the second has none. -/
theorem getLastD_statuses_append (xs ys : List Event) (d : Byte) :
    (statuses (xs ++ ys)).getLastD d = (statuses ys).getLastD ((statuses xs).getLastD d) := by
  simp [statuses, List.getLastD_eq_getLast?, List.getLast?_append, Option.getD_or]

/-- `t` has a history that extends `s`'s, and in `LAST_ERR` the last status of what was appended, if any (R24). -/
def RecordsCalls (s t : State) : Prop :=
  ∃ calls, t.history = s.history ++ calls ∧ t.lastErr = (statuses calls).getLastD s.lastErr

/-- The equation of R24 is kept by whatever records its calls. -/
theorem RecordsCalls.lastStatus {s t : State} (h : RecordsCalls s t) (hs : s.lastErr = Machine.lastStatus s.history) :
    t.lastErr = Machine.lastStatus t.history := by
  obtain ⟨calls, hcalls, herr⟩ := h
  rw [herr, hs, hcalls]
  exact (getLastD_statuses_append s.history calls 0#8).symm

/-! ## Bus traffic -/

/-- The state a Transport access leaves, completed or not. -/
def BusResult.state {α : Type} : BusResult α → State
  | .done _ s => s
  | .failed s => s

/-- The second state is `s` after Transport calls: they are recorded, `LAST_ERR` is the last status among them or as
before (R24), the sensor's register file stays canonical, and every other register is as before. -/
inductive Traffic (s : State) : State → Prop
  | after (n : Nat) (code : Byte) (calls : List Event) (x : Sensor)
      (hcode : (statuses calls).getLastD s.lastErr = code) (hx : sensorWf s.sensor = true → sensorWf x = true) :
      Traffic s { afterCalls s n code calls with sensor := x }

theorem traffic_afterCalls {s : State} {n : Nat} {code : Byte} {calls : List Event}
    (hcode : (statuses calls).getLastD s.lastErr = code) : Traffic s (afterCalls s n code calls) :=
  .after n code calls s.sensor hcode id

theorem Traffic.refl (s : State) : Traffic s s := by
  simpa [afterCalls] using traffic_afterCalls (s := s) (n := 0) (code := s.lastErr) (calls := []) rfl

theorem Traffic.trans {s t u : State} (hst : Traffic s t) (htu : Traffic t u) : Traffic s u := by
  obtain ⟨n, c, xs, x, hc, hx⟩ := hst
  obtain ⟨m, d, ys, y, hd, hy⟩ := htu
  have hcode : (statuses (xs ++ ys)).getLastD s.lastErr = d := by
    rw [getLastD_statuses_append, hc]
    exact hd
  simpa [afterCalls, Nat.add_assoc] using Traffic.after (n + m) d (xs ++ ys) y hcode (hy ∘ hx)

theorem memRead_traffic (reg : Byte) (s : State) : Traffic s (memRead reg s).state := by
  obtain ⟨-, h⟩ | ⟨k, hk, -, h⟩ := memRead_cases reg s <;> rw [h]
  · exact traffic_afterCalls rfl
  · interval_cases k <;> exact traffic_afterCalls rfl

theorem memWrite_traffic (reg b : Byte) (s : State) : Traffic s (memWrite reg b s).state := by
  obtain ⟨-, h⟩ | ⟨-, h⟩ := memWrite_cases reg b s <;> rw [h] <;>
    exact .after 1 _ _ _ rfl (sensorWf_sensorWrite reg b _)

theorem probeBus_traffic (s : State) : Traffic s (probeBus s).2 :=
  traffic_afterCalls rfl

theorem readPair_traffic (w : PairWidth) (reg : Byte) (s : State) : Traffic s (readPair w reg s).state := by
  obtain ⟨-, h⟩ | ⟨k, hk, -, h⟩ := readPair_cases w reg s <;> rw [h]
  · exact traffic_afterCalls rfl
  · interval_cases k <;> exact traffic_afterCalls rfl

theorem writePair_traffic (w : PairWidth) (reg : Byte) (v : Half) (s : State) :
    Traffic s (writePair w reg v s).state := by
  obtain ⟨-, h⟩ | ⟨-, h⟩ | ⟨-, h⟩ := writePair_cases w reg v s <;> rw [h]
  · exact .after 2 _ _ _ rfl fun hs => sensorWf_sensorWrite _ _ _ (sensorWf_sensorWrite _ _ _ hs)
  · exact .after 1 _ _ _ rfl (sensorWf_sensorWrite _ _ _)
  · exact .after 2 _ _ _ rfl fun hs => sensorWf_sensorWrite _ _ _ (sensorWf_sensorWrite _ _ _ hs)

/-- Each transaction of the traffic has set `LAST_ERR` to its status. -/
theorem Traffic.recordsCalls {s t : State} (h : Traffic s t) : RecordsCalls s t := by
  obtain ⟨n, code, calls, x, hcode, -⟩ := h
  exact ⟨calls, rfl, hcode.symm⟩

theorem Traffic.params {s t : State} (h : Traffic s t) : t.params = s.params := by
  obtain ⟨n, code, calls, x, -, -⟩ := h
  rfl

/-! ## How a command ends -/

/-- Every way `i` can end from `s` (`00_scope.md` R14): refused with nothing done; answered or failed after bus traffic;
or having written its one register: `OFFSET` (R22), `ADDR` an accepted address (R21), `HIST` at an accepted time (R23). -/
inductive Ends (s : State) : Instr → State → Prop
  | invalid (i : Instr) : Ends s i (raiseInvalidArgument s)
  | illegal (v : Half) (hv : s.params.variant = .base) : Ends s (.setAddress v) (raiseIllegalCommand s)
  | ok (i : Instr) (r : Word) {u : State} (hu : Traffic s u) : Ends s i (respondOk r u)
  | busError (i : Instr) {u : State} (hu : Traffic s u) : Ends s i (raiseBusError u)
  | offset (i : Instr) (hi : setsOffset i) (o : Angle) : Ends s i (respondOk 0#32 { s with offset := o })
  | address (v : Half) (hv : s.params.variant = .addressable) (hr : outsideBusRange v = false) :
      Ends s (.setAddress v) (respondOk 0#32 { s with addr := toBusAddr v })
  | sampled (now : Word) (r : Angle) {u : State} (hnow : overTsw s.params now = false) (hu : Traffic s u) :
      Ends s (.speedSample now) (finishSample r now u)
  | sampleFailed (now : Word) {u : State} (hnow : overTsw s.params now = false) (hu : Traffic s u) :
      Ends s (.speedSample now) (failSample now u)

/-- A check that refuses, then the rest of the command. -/
theorem ends_of_check {s t : State} {i : Instr} {refuse : Bool} (h : refuse = false → Ends s i t) :
    Ends s i (if refuse then raiseInvalidArgument s else t) := by
  cases refuse with
  | true => exact .invalid i
  | false => exact h rfl

/-- A bus access, then the rest of the command, or BUS_ERROR (R46). -/
theorem ends_afterBus {α : Type} {s t : State} {i : Instr} {r : BusResult α} {next : α → State → State}
    (hst : Traffic s t) (hr : Traffic t r.state) (hn : ∀ v u, Traffic s u → Ends s i (next v u)) :
    Ends s i (afterBus r next) := by
  cases r with
  | done v u => exact hn v u (hst.trans hr)
  | failed u => exact .busError i (hst.trans hr)

/-- A bus access, then the answer OK. -/
theorem ends_access {α : Type} {s : State} {i : Instr} {r : BusResult α} {result : α → State → Word}
    (hr : Traffic s r.state) : Ends s i (afterBus r fun v u => respondOk (result v u) u) :=
  ends_afterBus (.refl s) hr fun v u hu => .ok i (result v u) hu

theorem ends_readFixedPair (i : Instr) (reg : Byte) (s : State) : Ends s i (readFixedPair reg s) :=
  ends_access (readPair_traffic .w12 reg s)

theorem ends_writeFixedPair (i : Instr) (reg : Byte) (v : Half) (s : State) : Ends s i (writeFixedPair reg v s) :=
  ends_of_check fun _ => ends_access (writePair_traffic .w12 reg v s)

theorem ends_readPairCommand (i : Instr) (w : PairWidth) (reg : Byte) (s : State) :
    Ends s i (readPairCommand w reg s) :=
  ends_of_check fun _ => ends_access (readPair_traffic w reg s)

theorem ends_writePairCommand (i : Instr) (w : PairWidth) (tooWide : Bool) (reg : Byte) (v : Half) (s : State) :
    Ends s i (writePairCommand w tooWide reg v s) :=
  ends_of_check fun _ => ends_access (writePair_traffic w reg v s)

theorem ends_getField (i : Instr) (f : Field) (s : State) : Ends s i (getField f s) :=
  ends_access (memRead_traffic _ s)

theorem ends_setField (i : Instr) (f : Field) (v : Half) (s : State) : Ends s i (setField f v s) := by
  rw [setField]
  split
  · exact ends_afterBus (.refl s) (memRead_traffic _ s) fun b t ht =>
      ends_afterBus ht (memWrite_traffic _ _ t) fun _ u hu => .ok i 0#32 hu
  · exact .invalid i

theorem ends_setAddress (v : Half) (s : State) : ∃ t, execSetAddress v s = .next t ∧ Ends s (.setAddress v) t := by
  refine ⟨_, rfl, ?_⟩
  split
  next hv => exact .illegal v hv
  next hv => exact ends_of_check (.address v hv)

theorem ends_speedSample (now : Word) (s : State) :
    ∃ t, execSpeedSample now s = .next t ∧ Ends s (.speedSample now) t := by
  refine ⟨_, rfl, ends_of_check fun hnow => ?_⟩
  have hu := readPair_traffic .w12 0x0C#8 s
  split
  next t h =>
    rw [h] at hu
    exact .sampleFailed now hnow hu
  next r t h =>
    rw [h] at hu
    exact .sampled now (toAngle r) hnow hu

/-- Every command is executed, and ends in one of these ways. -/
theorem exec_next_ends (i : Instr) (s : State) : ∃ t, exec i s = .next t ∧ Ends s i t := by
  cases i with
  | read8 reg => exact ⟨_, rfl, ends_of_check fun _ => ends_access (memRead_traffic reg s)⟩
  | write8 reg v => exact ⟨_, rfl, ends_of_check fun _ => ends_access (memWrite_traffic reg (toByte v) s)⟩
  | read12 | read14 => exact ⟨_, rfl, ends_readPairCommand ..⟩
  | write12 | write14 => exact ⟨_, rfl, ends_writePairCommand ..⟩
  | setPm | setHyst | setOuts | setPwmf | setSf | setFth | setWd => exact ⟨_, rfl, ends_setField ..⟩
  | getPm | getHyst | getOuts | getPwmf | getSf | getFth | getWd => exact ⟨_, rfl, ends_getField ..⟩
  | getConf => exact ⟨_, rfl, ends_access (readPair_traffic .w14 0x07#8 s)⟩
  | setConf v => exact ⟨_, rfl, ends_of_check fun _ => ends_access (writePair_traffic .w14 0x07#8 v s)⟩
  | getZpos | getMpos | getMang | rawAngle | angle | readMagnitude => exact ⟨_, rfl, ends_readFixedPair ..⟩
  | setZpos | setMpos | setMang => exact ⟨_, rfl, ends_writeFixedPair ..⟩
  | effAngle => exact ⟨_, rfl, ends_access (readPair_traffic .w12 0x0C#8 s)⟩
  | getZmco | readStatusFlags | readAgc => exact ⟨_, rfl, ends_access (memRead_traffic _ s)⟩
  | setOffsetRaw v => exact ⟨_, rfl, ends_of_check fun _ => .offset _ (.inl ⟨v, rfl⟩) _⟩
  | setOffsetCdeg c => exact ⟨_, rfl, ends_of_check fun _ => .offset _ (.inr ⟨c, rfl⟩) _⟩
  | toDeg | wrapDelta => exact ⟨_, rfl, ends_of_check fun _ => .ok _ _ (.refl s)⟩
  | setbf | getbf | getOffsetRaw | getOffsetDeg | getAddress | getLastError => exact ⟨_, rfl, .ok _ _ (.refl s)⟩
  | speedSample now => exact ends_speedSample now s
  | probe => exact ⟨_, rfl, .ok _ _ (probeBus_traffic s)⟩
  | setAddress v => exact ends_setAddress v s

theorem exec_ends {i : Instr} {s t : State} (h : exec i s = .next t) : Ends s i t := by
  obtain ⟨u, hu, he⟩ := exec_next_ends i s
  obtain rfl : u = t := by simpa [hu] using h
  exact he

/-- Everything a step can do: wait, run the command it takes, or answer ILLEGAL_COMMAND. -/
theorem step_cases {s t : State} (h : step s = .next t) :
    (s.commands = [] ∧ t = s) ∨
    ∃ c rest, s.commands = c :: rest ∧
      ((∃ i, decode s.params.variant c = .instr i ∧ exec i { s with commands := rest } = .next t) ∨
        ∃ why, decode s.params.variant c = .illegal why ∧ t = raiseIllegalCommand { s with commands := rest }) := by
  cases hc : s.commands with
  | nil =>
    simp only [step, takeCommand, hc, Host.Outcome.next.injEq] at h
    exact .inl ⟨rfl, h.symm⟩
  | cons c rest =>
    refine .inr ⟨c, rest, rfl, ?_⟩
    cases hd : decode s.params.variant c with
    | instr i =>
      simp only [step, takeCommand, hc, hd] at h
      exact .inl ⟨i, rfl, h⟩
    | illegal why =>
      simp only [step, takeCommand, hc, hd, Host.Outcome.next.injEq] at h
      exact .inr ⟨why, rfl, h.symm⟩

/-! ## The invariants (R25) -/

theorem addrLegal_resetAddr (v : Variant) : addrLegal v (resetAddr v) = true := by
  cases v <;> decide

/-- An address SET_ADDRESS accepts is one `ADDR` may hold (R212). -/
theorem addrLegal_toBusAddr {v : Half} (h : outsideBusRange v = false) :
    addrLegal .addressable (toBusAddr v) = true := by
  simp only [outsideBusRange, Bool.or_eq_false_iff, decide_eq_false_iff_not] at h
  simp only [addrLegal, toBusAddr, BitVec.toNat_setWidth, Bool.and_eq_true, decide_eq_true_eq]
  omega

/-- A timestamp SPEED_SAMPLE accepts fits `TSW` bits (R181). -/
theorem histFits_of_not_overTsw {p : Params} {now : Word} (r : Angle) (h : overTsw p now = false) :
    histFits p (some ⟨r, now⟩) = true := by
  simpa [overTsw, histFits] using h

theorem Traffic.inv {s t : State} (h : Traffic s t) (hs : s.Inv) : t.Inv := by
  obtain ⟨n, code, calls, x, -, hx⟩ := h
  exact ⟨hs.params, hs.addr, hs.hist, hx hs.sensor⟩

theorem Ends.inv {s t : State} {i : Instr} (h : Ends s i t) (hs : s.Inv) : t.Inv := by
  cases h with
  | invalid | illegal | offset => exact ⟨hs.params, hs.addr, hs.hist, hs.sensor⟩
  | ok _ _ hu | busError _ hu =>
    have hu := hu.inv hs
    exact ⟨hu.params, hu.addr, hu.hist, hu.sensor⟩
  | address v hv hr => exact ⟨hs.params, by simpa [hv] using addrLegal_toBusAddr hr, hs.hist, hs.sensor⟩
  | sampled now r hnow hu | sampleFailed now hnow hu =>
    have hnow := hu.params ▸ hnow
    have hu := hu.inv hs
    exact ⟨hu.params, hu.addr, histFits_of_not_overTsw _ hnow, hu.sensor⟩

/-- Settles O42: each command ends in one of the ways of `Ends`, and each of those keeps the invariants. -/
theorem stepKeepsInvariant : Obligations.StepKeepsInvariant := by
  intro s t hs h
  obtain ⟨-, rfl⟩ | ⟨c, rest, -, ⟨i, -, he⟩ | ⟨why, -, rfl⟩⟩ := step_cases h
  · exact hs
  · exact (exec_ends he).inv ⟨hs.params, hs.addr, hs.hist, hs.sensor⟩
  · exact ⟨hs.params, hs.addr, hs.hist, hs.sensor⟩

/-- Settles O43, by the reset values of R32. -/
theorem resetHoldsInvariant : Obligations.ResetHoldsInvariant := by
  intro p hp
  have hinv : (State.resetWith p).Inv := ⟨hp, addrLegal_resetAddr p.variant, rfl, reset_sensor_wf p⟩
  have haddr {v : Variant} (hv : p.variant = v) : (State.resetWith p).addr = resetAddr v := by rw [← hv]; rfl
  exact ⟨hinv, haddr, haddr, rfl, rfl, rfl, rfl⟩

/-! ## `LAST_ERR` (R24) -/

/-- What a command appends to the history, and the last status among it in `LAST_ERR`. -/
theorem Ends.recordsCalls {s t : State} {i : Instr} (h : Ends s i t) : RecordsCalls s t := by
  cases h with
  | invalid | illegal | offset | address => exact (Traffic.refl s).recordsCalls
  | ok _ _ hu | busError _ hu | sampled _ _ _ hu | sampleFailed _ _ hu => exact hu.recordsCalls

/-- A refused command leaves `LAST_ERR` alone: only commands with no bus traffic end so. -/
theorem Ends.lastErr_of_refused {s t : State} {i : Instr} {r r2 : Word} (h : Ends s i t)
    (ht : t.response = some ⟨.invalidArgument, r, r2⟩ ∨ t.response = some ⟨.illegalCommand, r, r2⟩) :
    t.lastErr = s.lastErr := by
  cases h with
  | invalid | illegal | offset | address => rfl
  | ok | busError | sampled | sampleFailed => simp [finishSample, failSample] at ht

theorem step_recordsCalls {s t : State} (h : step s = .next t) : RecordsCalls s t := by
  obtain ⟨-, rfl⟩ | ⟨c, rest, -, ⟨i, -, he⟩ | ⟨why, -, rfl⟩⟩ := step_cases h
  · exact (Traffic.refl _).recordsCalls
  · exact (exec_ends he).recordsCalls
  · exact (Traffic.refl _).recordsCalls

/-- Settles O44: the step's clause by the ways a command ends, and the history's clause from it. -/
theorem lastErrorIsLastStatus : Obligations.LastErrorIsLastStatus := by
  have hreset (p : Params) : (State.resetWith p).lastErr = 0#8 ∧
      (State.resetWith p).lastErr = lastStatus (State.resetWith p).history := ⟨rfl, rfl⟩
  exact ⟨hreset, fun s => ⟨_, rfl, rfl, rfl⟩, fun i s t r r2 h => (exec_ends h).lastErr_of_refused,
    fun s t => step_recordsCalls, fun s t hs h => (step_recordsCalls h).lastStatus hs⟩

end Sys2Proof.Machine
end

section
/-! PROOFS of the statements about the Transport Port (`20_memory.md`): its three accesses, from their closed forms. -/

namespace Sys2Proof.Machine

open Sys2Proof.Claims

/-! ## Byte accesses, by the transactions ahead -/

/-- A byte read with two successful transactions ahead (R47). -/
theorem memRead_of_succeed {s : State} (reg : Byte) (h : Succeed s 2) :
    memRead reg s = .done (answerByte s 1 reg) (afterCalls s 2 0#8 (byteReadCalls s 0 reg)) :=
  memRead_done reg (h 0 Nat.two_pos) (h 1 Nat.one_lt_two)

/-- A byte read stops at the first of its two transactions that fails (R47, D6). -/
theorem memRead_of_failsAt {s : State} (reg : Byte) {k : Nat} (hk : k < 2) (h : FailsAt s k) :
    memRead reg s = .failed (afterCalls s (k + 1) (answerStatus s k) (byteFailCalls s 0 reg k)) := by
  obtain ⟨hbefore, hfail⟩ := h
  match k, hk with
  | 0, _ => exact memRead_select_failed reg hfail
  | 1, _ => exact memRead_request_failed reg (hbefore 0 Nat.one_pos) hfail

/-- A byte write with a successful transaction ahead (R48). -/
theorem memWrite_of_succeed {s : State} (reg b : Byte) (h : Succeed s 1) :
    memWrite reg b s = .done () (afterWrite s 1 [] reg b 0#8) :=
  memWrite_done reg b (h 0 Nat.one_pos)

/-- A byte write with a failing transaction ahead (R48). -/
theorem memWrite_of_failsAt {s : State} (reg b : Byte) (h : FailsAt s 0) :
    memWrite reg b s = .failed (afterWrite s 1 [] reg b (answerStatus s 0)) :=
  memWrite_failed reg b h.2

/-- Settles O10: the three outcomes of a byte read, its calls written out. -/
theorem byteReadFollowsCallSequence : Obligations.ByteReadFollowsCallSequence := fun reg _ =>
  ⟨memRead_of_succeed reg, memRead_of_failsAt reg Nat.two_pos, memRead_of_failsAt reg Nat.one_lt_two⟩

/-- Settles O11: the two outcomes of a byte write. -/
theorem byteWriteFollowsCallSequence : Obligations.ByteWriteFollowsCallSequence := fun reg b _ =>
  ⟨memWrite_of_succeed reg b, memWrite_of_failsAt reg b⟩

/-! ## PROBE -/

theorem readsAs_probe : ReadsAs 0x50#8 0#8 0#16 .probe := by
  intro variant aux
  simp [decode]

theorem respondOk_eq_okWith (r : Word) (s : State) : respondOk r s = okWith r s := rfl

/-- Every PROBE answers OK, after its one transaction (R210). -/
theorem exec_probe (s : State) :
    exec .probe s = .next (respondOk (if (probeBus s).1 then 1#32 else 0#32) (probeBus s).2) := rfl

/-- Settles O39: the status of a probe chooses the answer of an OK response, never a BUS_ERROR. -/
theorem probeReportsConnection : Obligations.ProbeReportsConnection := by
  refine ⟨readsAs_probe, fun s => ?_⟩
  simp only [exec_probe, probeBus_eq, respondOk_eq_okWith, beq_iff_eq]

end Sys2Proof.Machine
end

section
/-! PROOFS of the statements about the encoding (`30_encoding.md`): the decoder row by row of the opcode map. -/

namespace Sys2Proof

open Sys2Proof.Claims

/-! ## The rows of the opcode map -/

/-- The assigned opcodes, row by row in the order of R72: five ranges. -/
theorem opcodeMap_opcodes :
    opcodeMap.map (fun r => (cmdOp r.pattern).toNat) =
      List.range' 0x01 8 ++ List.range' 0x10 23 ++ List.range' 0x30 10 ++ List.range' 0x40 3 ++ List.range' 0x50 4 := by
  decide

/-- Each row fixes `OP` to a different value (R70). -/
theorem opcodeRow_eq_of_cmdOp {r q : OpcodeRow} (hr : r ∈ opcodeMap) (hq : q ∈ opcodeMap)
    (h : cmdOp r.pattern = cmdOp q.pattern) : r = q := by
  have hnodup : (opcodeMap.map fun r => (cmdOp r.pattern).toNat).Nodup := by
    rw [opcodeMap_opcodes]
    decide
  exact List.inj_on_of_nodup_map hnodup hr hq (congrArg BitVec.toNat h)

/-- An opcode has a row exactly when it lies outside R71's list. -/
theorem exists_row_iff (op : Byte) : (∃ r ∈ opcodeMap, cmdOp r.pattern = op) ↔ ¬ reservedOpcode op.toNat := by
  have hmem : (∃ r ∈ opcodeMap, cmdOp r.pattern = op) ↔
      op.toNat ∈ opcodeMap.map fun r => (cmdOp r.pattern).toNat := by
    simp [BitVec.toNat_inj]
  have hlt := op.isLt
  rw [hmem, opcodeMap_opcodes]
  simp only [List.mem_append, List.mem_range'_1, reservedOpcode]
  omega

/-- The row SET_ADDRESS alone has `OP` 0x52. -/
theorem mnemonic_setAddress_iff {r : OpcodeRow} (hr : r ∈ opcodeMap) :
    r.mnemonic = "SET_ADDRESS" ↔ cmdOp r.pattern = 0x52#8 := by
  revert r
  decide

theorem mem_variantRows {variant : Variant} {r : OpcodeRow} :
    r ∈ variantRows variant ↔ r ∈ opcodeMap ∧ (variant = .base → r.mnemonic ≠ "SET_ADDRESS") := by
  cases variant <;> simp [variantRows]

/-! ## Reserved fields -/

/-- The fields a command of this form leaves unused are 0 (R69). -/
def reservedFieldsZero (form : OperandForm) (a : Byte) (d : Half) : Bool :=
  match form with
  | .bare | .centidegrees | .timestamp => a == 0#8 && d == 0#16
  | .reg => d == 0#16
  | .value | .curLast => a == 0#8
  | .regValue => true
  | .setBitfield | .getBitfield => aHigh a == 0#4

theorem reservedFieldsZero_iff (form : OperandForm) (a : Byte) (d : Half) :
    reservedFieldsZero form a d = true ↔
      (aReserved form = true → a = 0#8) ∧ (dReserved form = true → d = 0#16) ∧
        (aHighReserved form = true → aHigh a = 0#4) := by
  cases form <;> simp [reservedFieldsZero, aReserved, dReserved, aHighReserved]

/-- The bits of `A` a row of this form fixes to 0. -/
def aMask : OperandForm → Byte
  | .bare | .value | .centidegrees | .curLast | .timestamp => 0xFF#8
  | .reg | .regValue => 0x00#8
  | .setBitfield | .getBitfield => 0xF0#8

/-- The bits of `D` a row of this form fixes to 0. -/
def dMask : OperandForm → Half
  | .bare | .reg | .centidegrees | .timestamp => 0xFFFF#16
  | .value | .regValue | .setBitfield | .getBitfield | .curLast => 0x0000#16

theorem opcodeRow_words {r : OpcodeRow} (hr : r ∈ opcodeMap) :
    r.pattern = cmdWord (cmdOp r.pattern) 0#8 0#16 ∧ r.mask = cmdWord 0xFF#8 (aMask r.form) (dMask r.form) := by
  revert r
  decide

theorem and_0xF0_eq_zero_iff (a : Byte) : a &&& 0xF0#8 = 0#8 ↔ aHigh a = 0#4 := by
  revert a
  decide

theorem masked_iff_reservedFieldsZero (form : OperandForm) (a : Byte) (d : Half) :
    (a &&& aMask form = 0#8 ∧ d &&& dMask form = 0#16) ↔ reservedFieldsZero form a d = true := by
  have ha : a &&& 0xFF#8 = a := BitVec.and_allOnes
  have hd : d &&& 0xFFFF#16 = d := BitVec.and_allOnes
  cases form <;> simp [aMask, dMask, reservedFieldsZero, ha, hd, and_0xF0_eq_zero_iff]

/-- A row of the map matches the words with its `OP` and 0 in its reserved fields (R69, R70). -/
theorem rowMatches_iff_reservedFieldsZero {r : OpcodeRow} (hr : r ∈ opcodeMap) (cmd : Word) :
    rowMatches r cmd = true ↔
      cmdOp cmd = cmdOp r.pattern ∧ reservedFieldsZero r.form (cmdA cmd) (cmdD cmd) = true := by
  obtain ⟨hp, hm⟩ := opcodeRow_words hr
  rw [rowMatches_iff _ _ _ hp hm, masked_iff_reservedFieldsZero]

theorem opcodeRow_eq_of_rowMatches {r q : OpcodeRow} {cmd : Word} (hr : r ∈ opcodeMap) (hq : q ∈ opcodeMap)
    (hrm : rowMatches r cmd = true) (hqm : rowMatches q cmd = true) : r = q := by
  rw [rowMatches_iff_reservedFieldsZero hr] at hrm
  rw [rowMatches_iff_reservedFieldsZero hq] at hqm
  exact opcodeRow_eq_of_cmdOp hr hq (hrm.1.symm.trans hqm.1)

/-! ## The decoder, by the word's row -/

theorem decode_of_reservedOpcode (variant : Variant) {c : Command} (h : reservedOpcode (cmdOp c.cmd).toNat) :
    decode variant c = .illegal .reservedOpcode := by
  unfold decode
  split
  case h_49 => rfl
  all_goals next hop => simp [reservedOpcode, hop] at h

/-- A word whose opcode has a row decodes to an instruction of that row's mnemonic, or has a non-zero reserved field. -/
theorem decode_of_row {variant : Variant} {c : Command} {r : OpcodeRow} (hr : r ∈ variantRows variant)
    (hop : cmdOp c.cmd = cmdOp r.pattern) :
    ∃ i, mnemonicOf i = r.mnemonic ∧
      decode variant c = whenReservedZero (reservedFieldsZero r.form (cmdA c.cmd) (cmdD c.cmd)) i := by
  obtain ⟨hr, hv⟩ := mem_variantRows.1 hr
  unfold decode
  rw [hop]
  fin_cases hr
  -- Row by row the decoder's arm is the row's; row 47, SET_ADDRESS, is the one whose meaning depends on the variant.
  on_goal 47 =>
    cases variant
    · exact absurd rfl (hv rfl)
    · exact ⟨_, rfl, rfl⟩
  all_goals exact ⟨_, rfl, rfl⟩

theorem decode_absentOnBase {c : Command} (hop : cmdOp c.cmd = 0x52#8) :
    decode .base c = .illegal .absentOnBase := by
  unfold decode
  rw [hop]
  rfl

/-! ## R70's loop, by the word's row -/

theorem matchingRow_eq_none_iff {variant : Variant} {cmd : Word} :
    matchingRow variant cmd = none ↔ ∀ r ∈ variantRows variant, rowMatches r cmd ≠ true :=
  List.find?_eq_none

/-- No row of the variant matches a word whose opcode none of them has. -/
theorem matchingRow_eq_none_of_cmdOp {variant : Variant} {cmd : Word}
    (h : ∀ r ∈ variantRows variant, cmdOp r.pattern ≠ cmdOp cmd) : matchingRow variant cmd = none :=
  matchingRow_eq_none_iff.2 fun r hr hmatch =>
    h r hr ((rowMatches_iff_reservedFieldsZero (mem_variantRows.1 hr).1 cmd).1 hmatch).1.symm

/-- The row the loop answers is a row of the map, with the word's opcode, and the word's reserved fields are 0. -/
theorem matchingRow_eq_some {variant : Variant} {cmd : Word} {r : OpcodeRow} (h : matchingRow variant cmd = some r) :
    r ∈ opcodeMap ∧ cmdOp cmd = cmdOp r.pattern ∧ reservedFieldsZero r.form (cmdA cmd) (cmdD cmd) = true := by
  have hr := (mem_variantRows.1 (List.mem_of_find?_eq_some h)).1
  have hmatch : rowMatches r cmd = true := List.find?_some (p := fun r => rowMatches r cmd) h
  exact ⟨hr, (rowMatches_iff_reservedFieldsZero hr cmd).1 hmatch⟩

/-- The loop answers the one row with the word's opcode, if the word's reserved fields are 0. -/
theorem matchingRow_of_row {variant : Variant} {cmd : Word} {r : OpcodeRow} (hr : r ∈ variantRows variant)
    (hop : cmdOp cmd = cmdOp r.pattern) :
    matchingRow variant cmd = if reservedFieldsZero r.form (cmdA cmd) (cmdD cmd) then some r else none := by
  have hrm := (mem_variantRows.1 hr).1
  cases hfound : matchingRow variant cmd with
  | none =>
    have hno := matchingRow_eq_none_iff.1 hfound r hr
    rw [if_neg fun hz => hno ((rowMatches_iff_reservedFieldsZero hrm cmd).2 ⟨hop, hz⟩)]
  | some q =>
    obtain ⟨hq, hq_op, hq_zero⟩ := matchingRow_eq_some hfound
    obtain rfl : r = q := opcodeRow_eq_of_cmdOp hrm hq (hop.symm.trans hq_op)
    rw [if_pos hq_zero]

/-- Where a word stands in the variant's map: its opcode has a row there, is reserved, or is SET_ADDRESS's on BASE. -/
theorem cmdOp_cases (variant : Variant) (op : Byte) :
    (∃ r ∈ variantRows variant, op = cmdOp r.pattern) ∨ reservedOpcode op.toNat ∨
      (variant = .base ∧ op = 0x52#8) := by
  by_cases hres : reservedOpcode op.toNat
  · exact .inr (.inl hres)
  obtain ⟨r, hr, rfl⟩ := (exists_row_iff op).2 hres
  by_cases hv : variant = .base ∧ cmdOp r.pattern = 0x52#8
  · exact .inr (.inr hv)
  · have hpresent : variant = .base → r.mnemonic ≠ "SET_ADDRESS" := fun hb hn =>
      hv ⟨hb, (mnemonic_setAddress_iff hr).1 hn⟩
    exact .inl ⟨r, mem_variantRows.2 ⟨hr, hpresent⟩, rfl⟩

/-- The decoder and R70's loop agree: a rejected word matches no row, a decoded one the row of its instruction. -/
theorem decode_agrees_matchingRow (variant : Variant) (c : Command) :
    (∃ why, decode variant c = .illegal why ∧ matchingRow variant c.cmd = none) ∨
      ∃ i r, decode variant c = .instr i ∧ matchingRow variant c.cmd = some r ∧ r.mnemonic = mnemonicOf i := by
  obtain ⟨r, hr, hop⟩ | hres | ⟨rfl, hop⟩ := cmdOp_cases variant (cmdOp c.cmd)
  · obtain ⟨i, hname, hdec⟩ := decode_of_row hr hop
    rw [hdec, matchingRow_of_row hr hop]
    cases reservedFieldsZero r.form (cmdA c.cmd) (cmdD c.cmd) with
    | true => exact .inr ⟨i, r, rfl, rfl, hname.symm⟩
    | false => exact .inl ⟨_, rfl, rfl⟩
  · have hnone : ¬ ∃ r ∈ opcodeMap, cmdOp r.pattern = cmdOp c.cmd := fun h => (exists_row_iff _).1 h hres
    exact .inl ⟨_, decode_of_reservedOpcode variant hres,
      matchingRow_eq_none_of_cmdOp fun r hr h => hnone ⟨r, (mem_variantRows.1 hr).1, h⟩⟩
  · refine .inl ⟨_, decode_absentOnBase hop, matchingRow_eq_none_of_cmdOp fun r hr h => ?_⟩
    obtain ⟨hrm, hpresent⟩ := mem_variantRows.1 hr
    exact hpresent rfl ((mnemonic_setAddress_iff hrm).2 (h.trans hop))

/-- Settles O3: each row has an opcode of its own, and the decoder reads a word by the row with its opcode. -/
theorem decodeFollowsOpcodeMap : Obligations.DecodeFollowsOpcodeMap := by
  refine ⟨fun variant c => ?_, fun cmd r q => opcodeRow_eq_of_rowMatches, fun r q => opcodeRow_eq_of_cmdOp,
    fun r hr => (mem_variantRows.1 hr).2 rfl⟩
  obtain ⟨why, hdec, hnone⟩ | ⟨i, r, hdec, hsome, hname⟩ := decode_agrees_matchingRow variant c
  · rw [hdec]
    exact hnone
  · rw [hdec]
    exact ⟨r, hsome, hname⟩

/-! ## `AUX` -/

/-- The bits of `AUX` a command of this form reads, the others 0 (R66, R69). -/
def usedAux : OperandForm → Word → Word
  | .bare, _ | .reg, _ | .regValue, _ | .value, _ => 0#32
  | .getBitfield, aux => auxPair 0#16 (auxLow aux)
  | .setBitfield, aux | .centidegrees, aux | .curLast, aux | .timestamp, aux => aux

/-- The decoder reads only the bits of `AUX` that the word's row uses. -/
theorem decode_usedAux (variant : Variant) {cmd : Word} {r : OpcodeRow} (hr : r ∈ opcodeMap)
    (hop : cmdOp cmd = cmdOp r.pattern) (aux : Word) :
    decode variant ⟨cmd, usedAux r.form aux⟩ = decode variant ⟨cmd, aux⟩ := by
  have hlow : auxLow (usedAux .getBitfield aux) = auxLow aux := auxLow_auxPair 0#16 (auxLow aux)
  unfold decode
  dsimp only
  rw [hop]
  fin_cases hr
  -- Every other row uses all of `AUX` or none; GETBF, row 8, uses its low half.
  on_goal 8 =>
    change whenReservedZero _ (.getbf _ _ (auxLow (usedAux .getBitfield aux))) = _
    rw [hlow]
    rfl
  all_goals rfl

/-- The opcodes that read `AUX` are those of SETBF, GETBF, SET_OFFSET_CDEG, WRAP_DELTA and SPEED_SAMPLE. -/
theorem form_of_cmdOp_not_mem {r : OpcodeRow} (hr : r ∈ opcodeMap)
    (h : cmdOp r.pattern ∉ [0x07#8, 0x08#8, 0x35#8, 0x38#8, 0x39#8]) :
    r.form ∈ [OperandForm.bare, .reg, .regValue, .value] := by
  revert r
  decide

theorem form_of_cmdOp_getbf {r : OpcodeRow} (hr : r ∈ opcodeMap) (h : cmdOp r.pattern = 0x08#8) :
    r.form = .getBitfield := by
  revert r
  decide

theorem usedAux_eq_zero {form : OperandForm} (h : form ∈ [OperandForm.bare, .reg, .regValue, .value]) (aux : Word) :
    usedAux form aux = 0#32 := by
  fin_cases h <;> rfl

/-- Two values of `AUX` that differ only in bits the command does not use decode alike (R69). -/
theorem decode_ignores_unused_aux (variant : Variant) {cmd aux aux' : Word}
    (h : cmdOp cmd ∉ [0x07#8, 0x08#8, 0x35#8, 0x38#8, 0x39#8] ∨ (cmdOp cmd = 0x08#8 ∧ auxLow aux = auxLow aux')) :
    decode variant ⟨cmd, aux⟩ = decode variant ⟨cmd, aux'⟩ := by
  by_cases hres : reservedOpcode (cmdOp cmd).toNat
  · have hdec (x : Word) : decode variant ⟨cmd, x⟩ = .illegal .reservedOpcode :=
      decode_of_reservedOpcode variant (c := ⟨cmd, x⟩) hres
    rw [hdec, hdec]
  obtain ⟨r, hr, hop⟩ := (exists_row_iff (cmdOp cmd)).2 hres
  have hused : usedAux r.form aux = usedAux r.form aux' := by
    rw [← hop] at h
    obtain h | ⟨h, hlow⟩ := h
    · have hform := form_of_cmdOp_not_mem hr h
      rw [usedAux_eq_zero hform, usedAux_eq_zero hform]
    · rw [form_of_cmdOp_getbf hr h]
      exact congrArg (auxPair 0#16) hlow
  rw [← decode_usedAux variant hr hop.symm aux, hused, decode_usedAux variant hr hop.symm aux']

end Sys2Proof

namespace Sys2Proof.Machine

open Sys2Proof.Claims

/-! ## Commands outside the map -/

/-- A step whose command the decoder rejects answers ILLEGAL_COMMAND and only takes the command (R223). -/
theorem step_of_illegal {s : State} {c : Command} {rest : List Command} {why : Illegal} (hc : s.commands = c :: rest)
    (hdec : decode s.params.variant c = .illegal why) :
    step s = .next { s with commands := rest, response := some ⟨.illegalCommand, 0#32, 0#32⟩ } := by
  simp only [step, takeCommand, hc, hdec]
  rfl

/-- Settles O5, by the five ranges of assigned opcodes. -/
theorem reservedOpcodesAnswerIllegal : Obligations.ReservedOpcodesAnswerIllegal := by
  refine ⟨fun op => ?_, fun s c rest hc hres => step_of_illegal hc (decode_of_reservedOpcode _ hres)⟩
  rw [← not_iff_not, ← exists_row_iff]
  push Not
  rfl

/-- A word whose opcode has a row but whose reserved fields are not all 0 is rejected on both variants (R69). -/
theorem decode_of_reservedField (variant : Variant) {c : Command} {r : OpcodeRow} (hr : r ∈ opcodeMap)
    (hop : cmdOp c.cmd = cmdOp r.pattern) (h : reservedFieldsZero r.form (cmdA c.cmd) (cmdD c.cmd) = false) :
    ∃ why, decode variant c = .illegal why := by
  obtain ⟨why, hdec, -⟩ | ⟨i, q, -, hfound, -⟩ := decode_agrees_matchingRow variant c
  · exact ⟨why, hdec⟩
  · obtain ⟨hq, hq_op, hq_zero⟩ := matchingRow_eq_some hfound
    obtain rfl : r = q := opcodeRow_eq_of_cmdOp hr hq (hop.symm.trans hq_op)
    exact absurd hq_zero (by simp [h])

/-- Settles O6: a word with a non-zero reserved field matches no row, and `decode` reads only the used bits of `AUX`. -/
theorem reservedFieldsAnswerIllegal : Obligations.ReservedFieldsAnswerIllegal := by
  refine ⟨fun s c rest r hc hr hop hfield => ?_, fun variant cmd aux aux' => decode_ignores_unused_aux variant⟩
  have hnz : reservedFieldsZero r.form (cmdA c.cmd) (cmdD c.cmd) = false := by
    rw [← Bool.not_eq_true, reservedFieldsZero_iff]
    rintro ⟨ha, hd, hhigh⟩
    obtain ⟨h, hne⟩ | ⟨h, hne⟩ | ⟨h, hne⟩ := hfield
    · exact hne (ha h)
    · exact hne (hd h)
    · exact hne (hhigh h)
  obtain ⟨why, hdec⟩ := decode_of_reservedField s.params.variant hr hop hnz
  exact step_of_illegal hc hdec

end Sys2Proof.Machine
end

section
/-! PROOFS of the statements about the Register Codec primitives (`40_codec_primitives.md`): the effect of a byte access
and of a pair access is said once for every command that ends in one; the two bitfield formulas are read bit by bit. -/

namespace Sys2Proof.Machine

open Sys2Proof.Claims

/-! ## Pair accesses, by the transactions ahead -/

theorem FailsAt.not_succeed {s : State} {k n : Nat} (h : FailsAt s k) (hk : k < n) : ¬ Succeed s n :=
  fun hs => h.2 (hs k hk)

theorem FailsAt.unique {s : State} {k j : Nat} (hk : FailsAt s k) (hj : FailsAt s j) : k = j := by
  obtain hlt | heq | hlt := Nat.lt_trichotomy k j
  · exact absurd hj.1 (hk.not_succeed hlt)
  · exact heq
  · exact absurd hk.1 (hj.not_succeed hlt)

/-- A pair read with four successful transactions ahead (R100). -/
theorem readPair_of_succeed {s : State} (w : PairWidth) (reg : Byte) (h : Succeed s 4) :
    readPair w reg s = .done (pairValue w (answerByte s 1 reg) (answerByte s 3 (reg + 1#8)))
      (afterCalls s 4 0#8 (pairReadCalls s reg)) := by
  obtain ⟨-, hr⟩ | ⟨k, hk, hfail, -⟩ := readPair_cases w reg s
  · exact hr
  · exact absurd h (hfail.not_succeed hk)

/-- A pair read stops at the first of its four transactions that fails (R100, D7). -/
theorem readPair_of_failsAt {s : State} (w : PairWidth) (reg : Byte) {k : Nat} (hk : k < 4) (h : FailsAt s k) :
    readPair w reg s = .failed (afterCalls s (k + 1) (answerStatus s k) (pairFailCalls s reg k)) := by
  obtain ⟨hs, -⟩ | ⟨j, -, hfail, hr⟩ := readPair_cases w reg s
  · exact absurd hs (h.not_succeed hk)
  · rwa [hfail.unique h] at hr

/-! ## What a command leaves that ends in one access -/

theorem raiseInvalidArgument_eq_invalidOf (s : State) : raiseInvalidArgument s = invalidOf s := rfl

theorem raiseBusError_eq_busErrorOf (s : State) : raiseBusError s = busErrorOf s := rfl

/-- A command that reads one byte and answers `next` of it. -/
theorem byteReadEffect_of_exec {i : Instr} {reg : Byte} {s : State} {next : Byte → State → Word}
    (h : exec i s = .next (afterBus (memRead reg s) fun b t => respondOk (next b t) t)) :
    ByteReadEffect i reg (next (answerByte s 1 reg) (afterCalls s 2 0#8 (byteReadCalls s 0 reg))) s := by
  refine ⟨fun hs => ?_, fun k hk hf => ?_⟩
  · rw [h, memRead_of_succeed reg hs, afterBus_done, respondOk_eq_okWith]
  · rw [h, memRead_of_failsAt reg hk hf, afterBus_failed, raiseBusError_eq_busErrorOf]

/-- A command that reads one pair and answers `next` of its value. -/
theorem pairReadEffect_of_exec {i : Instr} {w : PairWidth} {reg : Byte} {s : State} {next : Half → State → Word}
    (h : exec i s = .next (afterBus (readPair w reg s) fun v t => respondOk (next v t) t)) :
    PairReadEffect i reg (next (pairValue w (answerByte s 1 reg) (answerByte s 3 (reg + 1#8)))
      (afterCalls s 4 0#8 (pairReadCalls s reg))) s := by
  refine ⟨fun hs => ?_, fun k hk hf => ?_⟩
  · rw [h, readPair_of_succeed w reg hs, afterBus_done, respondOk_eq_okWith]
  · rw [h, readPair_of_failsAt w reg hk hf, afterBus_failed, raiseBusError_eq_busErrorOf]

/-- A value of at most `W` bits fits the bytes R101 writes: its high byte loses nothing to the mask. -/
theorem pairHighByte_eq_div {w : PairWidth} {v : Half} (hv : v.toNat < 2 ^ pairBits w) :
    pairHighByte w v = BitVec.ofNat 8 (v.toNat / 256) := by
  apply BitVec.eq_of_toNat_eq
  cases w with
  | w12 =>
    simp only [pairBits] at hv
    rw [pairHighByte12_toNat, BitVec.toNat_ofNat]
    omega
  | w14 =>
    simp only [pairBits] at hv
    rw [pairHighByte14_toNat, BitVec.toNat_ofNat]
    omega

theorem pairLowByte_eq_mod (v : Half) : pairLowByte v = BitVec.ofNat 8 (v.toNat % 256) := by
  apply BitVec.eq_of_toNat_eq
  rw [pairLowByte_toNat, BitVec.toNat_ofNat, Nat.mod_mod]

/-- A command that writes one pair, of a value that fits it, and answers 0. -/
theorem pairWriteEffect_of_exec {i : Instr} {w : PairWidth} {reg : Byte} {v : Half} {s : State}
    (hv : v.toNat < 2 ^ pairBits w)
    (h : exec i s = .next (afterBus (writePair w reg v s) fun _ t => respondOk 0#32 t)) :
    PairWriteEffect i reg v s := by
  have hhi := pairHighByte_eq_div hv
  have hlo := pairLowByte_eq_mod v
  refine ⟨fun hs => ?_, fun hf => ?_, fun hf => ?_⟩
  · rw [h, writePair_done w reg v (hs 0 Nat.two_pos) (hs 1 Nat.one_lt_two), hhi, hlo]
    rfl
  · rw [h, writePair_first_failed w reg v hf.2, hhi]
    rfl
  · rw [h, writePair_second_failed w reg v (hf.1 0 Nat.one_pos) hf.2, hhi, hlo]
    rfl

/-! ## READ8 and WRITE8 -/

theorem readsAs_read8 (reg : Byte) : ReadsAs 0x01#8 reg 0#16 (.read8 reg) := by
  intro variant aux
  simp [decode]

theorem exec_read8 (reg : Byte) (s : State) :
    exec (.read8 reg) s = .next (if touchesBurn8 reg then raiseInvalidArgument s
      else afterBus (memRead reg s) fun b t => respondOk (zextByte b) t) := rfl

theorem touchesBurn8_iff (reg : Byte) : touchesBurn8 reg = true ↔ reg = 0xFF#8 := beq_iff_eq

/-- Settles O13: the check of R56, then the one byte read. -/
theorem read8ReturnsByte : Obligations.Read8ReturnsByte := by
  refine fun reg s => ⟨readsAs_read8 reg, fun hburn => ?_, fun hreg => ?_⟩
  · rw [exec_read8, if_pos ((touchesBurn8_iff reg).2 hburn), raiseInvalidArgument_eq_invalidOf]
  · refine byteReadEffect_of_exec (next := fun b _ => zextByte b) ?_
    rw [exec_read8, if_neg (mt (touchesBurn8_iff reg).1 hreg)]

theorem readsAs_write8 (reg : Byte) (v : Half) : ReadsAs 0x02#8 reg v (.write8 reg v) := by
  intro variant aux
  simp [decode]

theorem exec_write8 (reg : Byte) (v : Half) (s : State) :
    exec (.write8 reg v) s = .next (if touchesBurn8 reg || over8 v then raiseInvalidArgument s
      else afterBus (memWrite reg (toByte v) s) fun _ t => respondOk 0#32 t) := rfl

theorem write8_refused_iff (reg : Byte) (v : Half) :
    (touchesBurn8 reg || over8 v) = true ↔ reg = 0xFF#8 ∨ 0xFF < v.toNat := by
  rw [Bool.or_eq_true_iff, touchesBurn8_iff, over8, decide_eq_true_iff]

/-- Settles O14: the checks of R56 and R106, then the one byte write. -/
theorem write8SendsByte : Obligations.Write8SendsByte := by
  refine fun reg v s => ⟨readsAs_write8 reg v, fun hrefused => ?_, fun hreg hv => ?_⟩
  · rw [exec_write8, if_pos ((write8_refused_iff reg v).2 hrefused), raiseInvalidArgument_eq_invalidOf]
  have haccepted : ¬ (touchesBurn8 reg || over8 v) = true :=
    mt (write8_refused_iff reg v).1 (not_or.2 ⟨hreg, Nat.not_lt.2 hv⟩)
  have hbyte : toByte v = BitVec.ofNat 8 v.toNat := (BitVec.ofNat_toNat 8 v).symm
  refine ⟨fun hs => ?_, fun hf => ?_⟩
  · rw [exec_write8, if_neg haccepted, hbyte, memWrite_of_succeed reg _ hs, afterBus_done, respondOk_eq_okWith]
  · rw [exec_write8, if_neg haccepted, hbyte, memWrite_of_failsAt reg _ hf, afterBus_failed,
      raiseBusError_eq_busErrorOf]

/-! ## READ12 and READ14 -/

/-- The value of a pair is the big-endian number of its two bytes, the high bits of the first discarded (R100). -/
theorem pairValue_toNat (w : PairWidth) (hi lo : Byte) :
    (pairValue w hi lo).toNat = pairNumber (pairBits w) hi lo := by
  cases w with
  | w12 => exact pairValue12_toNat hi lo
  | w14 => exact pairValue14_toNat hi lo

theorem zext32_eq_ofNat (v : Half) : zext32 v = BitVec.ofNat 32 v.toNat := (BitVec.ofNat_toNat 32 v).symm

/-- A command that reads one pair and answers its value. -/
theorem pairReadEffect_value {i : Instr} {w : PairWidth} {reg : Byte} {s : State}
    (h : exec i s = .next (afterBus (readPair w reg s) fun v t => respondOk (zext32 v) t)) :
    PairReadEffect i reg (BitVec.ofNat 32 (pairRead (pairBits w) s reg)) s := by
  rw [pairRead, ← pairValue_toNat, ← zext32_eq_ofNat]
  exact pairReadEffect_of_exec (next := fun v _ => zext32 v) h

theorem touchesBurn16_iff (reg : Byte) : touchesBurn16 reg = true ↔ 0xFE ≤ reg.toNat := decide_eq_true_iff

theorem readPairCommand_refused {reg : Byte} (w : PairWidth) (s : State) (h : 0xFE ≤ reg.toNat) :
    readPairCommand w reg s = invalidOf s :=
  if_pos ((touchesBurn16_iff reg).2 h)

theorem readPairCommand_accepted {reg : Byte} (w : PairWidth) (s : State) (h : reg.toNat < 0xFE) :
    readPairCommand w reg s = afterBus (readPair w reg s) fun v t => respondOk (zext32 v) t :=
  if_neg (mt (touchesBurn16_iff reg).1 (Nat.not_le.2 h))

theorem readsAs_read12 (reg : Byte) : ReadsAs 0x03#8 reg 0#16 (.read12 reg) := by
  intro variant aux
  simp [decode]

theorem readsAs_read14 (reg : Byte) : ReadsAs 0x04#8 reg 0#16 (.read14 reg) := by
  intro variant aux
  simp [decode]

theorem exec_read12 (reg : Byte) (s : State) : exec (.read12 reg) s = .next (readPairCommand .w12 reg s) := rfl

theorem exec_read14 (reg : Byte) (s : State) : exec (.read14 reg) s = .next (readPairCommand .w14 reg s) := rfl

/-- Settles O15: the check of R56, then the one pair read, at both widths. -/
theorem pairReadsAssembleBigEndian : Obligations.PairReadsAssembleBigEndian := by
  refine fun reg s => ⟨readsAs_read12 reg, readsAs_read14 reg, fun hburn => ⟨?_, ?_⟩, fun hreg => ⟨?_, ?_⟩⟩
  · rw [exec_read12, readPairCommand_refused _ s hburn]
  · rw [exec_read14, readPairCommand_refused _ s hburn]
  · exact pairReadEffect_value (w := .w12) (by rw [exec_read12, readPairCommand_accepted _ s hreg])
  · exact pairReadEffect_value (w := .w14) (by rw [exec_read14, readPairCommand_accepted _ s hreg])

/-! ## WRITE12 and WRITE14 -/

theorem over12_iff (v : Half) : over12 v = true ↔ 0x0FFF < v.toNat := decide_eq_true_iff

theorem over14_iff (v : Half) : over14 v = true ↔ 0x3FFF < v.toNat := decide_eq_true_iff

theorem pairWrite_refused_iff (reg : Byte) (tooWide : Bool) :
    (touchesBurn16 reg || tooWide) = true ↔ 0xFE ≤ reg.toNat ∨ tooWide = true := by
  rw [Bool.or_eq_true_iff, touchesBurn16_iff]

theorem writePairCommand_refused {reg : Byte} {tooWide : Bool} (w : PairWidth) (v : Half) (s : State)
    (h : 0xFE ≤ reg.toNat ∨ tooWide = true) : writePairCommand w tooWide reg v s = invalidOf s :=
  if_pos ((pairWrite_refused_iff reg tooWide).2 h)

theorem writePairCommand_accepted {reg : Byte} {tooWide : Bool} (w : PairWidth) (v : Half) (s : State)
    (hreg : reg.toNat < 0xFE) (hwide : ¬ tooWide = true) :
    writePairCommand w tooWide reg v s = afterBus (writePair w reg v s) fun _ t => respondOk 0#32 t :=
  if_neg (mt (pairWrite_refused_iff reg tooWide).1 (not_or.2 ⟨Nat.not_le.2 hreg, hwide⟩))

theorem readsAs_write12 (reg : Byte) (v : Half) : ReadsAs 0x05#8 reg v (.write12 reg v) := by
  intro variant aux
  simp [decode]

theorem readsAs_write14 (reg : Byte) (v : Half) : ReadsAs 0x06#8 reg v (.write14 reg v) := by
  intro variant aux
  simp [decode]

theorem exec_write12 (reg : Byte) (v : Half) (s : State) :
    exec (.write12 reg v) s = .next (writePairCommand .w12 (over12 v) reg v s) := rfl

theorem exec_write14 (reg : Byte) (v : Half) (s : State) :
    exec (.write14 reg v) s = .next (writePairCommand .w14 (over14 v) reg v s) := rfl

/-- Settles O16: the checks of R56, R109 and R110, then the one pair write, at both widths. -/
theorem pairWritesSplitBigEndian : Obligations.PairWritesSplitBigEndian := by
  refine fun reg v s => ⟨readsAs_write12 reg v, readsAs_write14 reg v, fun hrefused => ?_, fun hrefused => ?_,
    fun hreg hv => ?_, fun hreg hv => ?_⟩
  · rw [exec_write12, writePairCommand_refused _ v s (hrefused.imp_right (over12_iff v).2)]
  · rw [exec_write14, writePairCommand_refused _ v s (hrefused.imp_right (over14_iff v).2)]
  · refine pairWriteEffect_of_exec (w := .w12) (Nat.lt_succ_of_le hv) ?_
    rw [exec_write12, writePairCommand_accepted _ v s hreg (mt (over12_iff v).1 (Nat.not_lt.2 hv))]
  · refine pairWriteEffect_of_exec (w := .w14) (Nat.lt_succ_of_le hv) ?_
    rw [exec_write14, writePairCommand_accepted _ v s hreg (mt (over14_iff v).1 (Nat.not_lt.2 hv))]

/-! ## SETBF and GETBF -/

/-- A bit of the field comes from `new`, every other bit from `cur` (R102). -/
theorem getLsbD_setBitfield (cur mask new : Half) (shift : Nat) {k : Nat} (hk : k < 16) :
    (setBitfield cur mask shift new).getLsbD k =
      if shift ≤ k ∧ mask.getLsbD (k - shift) = true then new.getLsbD (k - shift) else cur.getLsbD k := by
  simp only [setBitfield, BitVec.getLsbD_or, BitVec.getLsbD_and, BitVec.getLsbD_not, BitVec.getLsbD_shiftLeft, hk]
  by_cases hle : shift ≤ k
  · cases hm : mask.getLsbD (k - shift) <;> simp [hle, Nat.not_lt.2 hle]
  · simp [hle, Nat.lt_of_not_le hle]

/-- A bit of the extracted field is the word's bit `shift` places up, where the mask has it (R103). -/
theorem getLsbD_getBitfield (word mask : Half) (shift k : Nat) :
    (getBitfield word mask shift).getLsbD k = (word.getLsbD (k + shift) && mask.getLsbD k) := by
  rw [getBitfield, BitVec.getLsbD_and, BitVec.getLsbD_ushiftRight, Nat.add_comm]

theorem decode_setbf (variant : Variant) (shift : BitVec 4) (cur mask new : Half) :
    decode variant ⟨cmdWord 0x07#8 (shiftByte shift) cur, auxPair new mask⟩ =
      .instr (.setbf shift cur mask new) := by
  simp [decode]

theorem decode_getbf (variant : Variant) (shift : BitVec 4) (word mask ignored : Half) :
    decode variant ⟨cmdWord 0x08#8 (shiftByte shift) word, auxPair ignored mask⟩ =
      .instr (.getbf shift word mask) := by
  simp [decode]

/-- Settles O17: SETBF answers R102's formula, read bit by bit. -/
theorem setbfInsertsField : Obligations.SetbfInsertsField := fun shift cur mask new _ =>
  ⟨fun variant => decode_setbf variant shift cur mask new, setBitfield cur mask shift.toNat new, rfl,
    fun _ hk => getLsbD_setBitfield cur mask new shift.toNat hk⟩

/-- Settles O18: GETBF answers R103's formula, read bit by bit. -/
theorem getbfExtractsField : Obligations.GetbfExtractsField := fun shift word mask _ =>
  ⟨fun variant ignored => decode_getbf variant shift word mask ignored, getBitfield word mask shift.toNat, rfl,
    fun k _ => getLsbD_getBitfield word mask shift.toNat k⟩

end Sys2Proof.Machine
end

section
/-! PROOFS of the statements about the configuration fields (`41_config_fields.md`): a field's mask is `2^width - 1`, so
inserting a field is read bit by bit and extracting one is a quotient and a remainder; the seven setters share one
read-modify-write. -/

namespace Sys2Proof.Machine

open Sys2Proof.Claims

/-! ## Masks and numbers of legal values (R120) -/

theorem fieldMask_toNat (f : Field) : (fieldMask f).toNat = 2 ^ fieldWidth f - 1 := by
  cases f <;> rfl

theorem fieldValidCount_le_two_pow (f : Field) : fieldValidCount f ≤ 2 ^ fieldWidth f := by
  cases f <;> decide

theorem mem_allFields (f : Field) : f ∈ allFields := by
  cases f <;> decide

theorem getLsbD_fieldMask (f : Field) (k : Nat) : (fieldMask f).getLsbD k = decide (k < fieldWidth f) := by
  rw [← BitVec.testBit_toNat, fieldMask_toNat, Nat.testBit_two_pow_sub_one]

theorem and_fieldMask_toNat (f : Field) (v : Half) : (v &&& fieldMask f).toNat = v.toNat % 2 ^ fieldWidth f := by
  rw [BitVec.toNat_and, fieldMask_toNat, Nat.and_two_pow_sub_one_eq_mod]

/-- A legal value has no bit outside the field's mask (R122). -/
theorem and_fieldMask_of_lt {f : Field} {v : Half} (hv : v.toNat < fieldValidCount f) : v &&& fieldMask f = v := by
  apply BitVec.eq_of_toNat_eq
  rw [and_fieldMask_toNat, Nat.mod_eq_of_lt (hv.trans_le (fieldValidCount_le_two_pow f))]

/-! ## Extracting and inserting a field -/

/-- R103's formula with a field's mask, as a number. -/
theorem getBitfield_fieldMask_toNat (word : Half) (f : Field) (shift : Nat) :
    (getBitfield word (fieldMask f) shift).toNat = word.toNat / 2 ^ shift % 2 ^ fieldWidth f := by
  rw [getBitfield, and_fieldMask_toNat, BitVec.toNat_ushiftRight, Nat.shiftRight_eq_div_pow]

/-- The value a getter returns, as a number (R124). -/
theorem extractField_toNat (l : ConfLayout) (f : Field) (b : Byte) :
    (extractField l f b).toNat = b.toNat / 2 ^ fieldShift l f % 2 ^ fieldWidth f := by
  rw [extractField, getBitfield_fieldMask_toNat, BitVec.toNat_setWidth_of_le (by decide)]

/-- The byte a setter writes back has the field's bits from the value, every other bit from the byte read (R123). -/
theorem getLsbD_insertField (l : ConfLayout) (f : Field) (b : Byte) (v : Half) {k : Nat} (hk : k < 8) :
    (insertField l f b v).getLsbD k =
      if fieldShift l f ≤ k ∧ k < fieldShift l f + fieldWidth f then v.getLsbD (k - fieldShift l f)
      else b.getLsbD k := by
  have hk16 : k < 16 := hk.trans (by decide)
  have hlow : (0x00FF#16 : Half).getLsbD k = true := by
    revert k; decide
  have hfield : (fieldShift l f ≤ k ∧ (fieldMask f).getLsbD (k - fieldShift l f) = true) ↔
      fieldShift l f ≤ k ∧ k < fieldShift l f + fieldWidth f := by
    rw [getLsbD_fieldMask, decide_eq_true_iff]
    omega
  simp only [insertField, BitVec.getLsbD_setWidth, BitVec.getLsbD_and, getLsbD_setBitfield _ _ _ _ hk16, hfield,
    hlow, hk, hk16, decide_true, Bool.true_and, Bool.and_true]

/-! ## A byte write after other transactions -/

theorem Succeed.mono {s : State} {m n : Nat} (h : Succeed s n) (hmn : m ≤ n) : Succeed s m :=
  fun j hj => h j (hj.trans_le hmn)

theorem afterWrite_afterCalls (s : State) (n : Nat) (c : Byte) (calls : List Event) (reg b code : Byte) :
    afterWrite (afterCalls s n c calls) 1 [] reg b code = afterWrite s (n + 1) calls reg b code := by
  simp only [afterWrite, afterCalls_afterCalls, afterCalls_addr, afterCalls_sensor, List.nil_append]

/-- A byte write that succeeds after `n` transactions (R48). -/
theorem memWrite_afterCalls_done {s : State} {n : Nat} (c : Byte) (calls : List Event) (reg b : Byte)
    (h : answerStatus s n = 0#8) :
    memWrite reg b (afterCalls s n c calls) = .done () (afterWrite s (n + 1) calls reg b 0#8) := by
  rw [← afterWrite_afterCalls s n c]
  exact memWrite_done reg b ((answerStatus_afterCalls s n c calls 0).trans h)

/-- A byte write that fails after `n` transactions (R48). -/
theorem memWrite_afterCalls_failed {s : State} {n : Nat} (c : Byte) (calls : List Event) (reg b : Byte)
    (h : answerStatus s n ≠ 0#8) :
    memWrite reg b (afterCalls s n c calls) = .failed (afterWrite s (n + 1) calls reg b (answerStatus s n)) := by
  have hstatus : answerStatus (afterCalls s n c calls) 0 = answerStatus s n := answerStatus_afterCalls s n c calls 0
  rw [← afterWrite_afterCalls s n c, ← hstatus]
  exact memWrite_failed reg b (hstatus ▸ h)

/-! ## The field setters -/

theorem readsAs_setterOf (f : Field) (v : Half) : ReadsAs (setterOpcode f) 0#8 v (setterOf f v) := by
  intro variant aux
  cases f <;> simp [decode, setterOpcode, setterOf]

theorem exec_setterOf (f : Field) (v : Half) (s : State) : exec (setterOf f v) s = .next (setField f v s) := by
  cases f <;> rfl

theorem fieldAccepts_iff (f : Field) (v : Half) : fieldAccepts f v = true ↔ v.toNat < fieldValidCount f :=
  decide_eq_true_iff

theorem setField_refused {f : Field} {v : Half} (s : State) (hv : fieldValidCount f ≤ v.toNat) :
    setField f v s = invalidOf s :=
  if_neg (mt (fieldAccepts_iff f v).1 (Nat.not_lt.2 hv))

theorem setField_accepted {f : Field} {v : Half} (s : State) (hv : v.toNat < fieldValidCount f) :
    setField f v s = afterBus (memRead (fieldReg s.params.layout f) s) fun b t =>
      afterBus (memWrite (fieldReg s.params.layout f) (insertField s.params.layout f b v) t) fun _ u =>
        respondOk 0#32 u :=
  if_pos ((fieldAccepts_iff f v).2 hv)

/-- Settles O19: the check of R122, then the read-modify-write of R123 by its first failing transaction. -/
theorem fieldSettersReadModifyWrite : Obligations.FieldSettersReadModifyWrite := by
  refine fun f v s => ⟨readsAs_setterOf f v, and_fieldMask_of_lt, fun hv => ?_, fun hv => ?_⟩
  · rw [exec_setterOf, setField_refused s hv]
  refine ⟨insertField s.params.layout f (answerByte s 1 (fieldReg s.params.layout f)) v,
    fun k => getLsbD_insertField s.params.layout f _ v, fun hs => ?_, fun k hk hf => ?_, fun hf => ?_⟩
  · rw [exec_setterOf, setField_accepted s hv, memRead_of_succeed _ (hs.mono (by decide)), afterBus_done,
      memWrite_afterCalls_done _ _ _ _ (hs 2 (by decide)), afterBus_done, respondOk_eq_okWith]
  · rw [exec_setterOf, setField_accepted s hv, memRead_of_failsAt _ hk hf, afterBus_failed,
      raiseBusError_eq_busErrorOf]
  · rw [exec_setterOf, setField_accepted s hv, memRead_of_succeed _ hf.1, afterBus_done,
      memWrite_afterCalls_failed _ _ _ _ hf.2, afterBus_failed, raiseBusError_eq_busErrorOf]

/-! ## The field getters -/

theorem readsAs_getterOf (f : Field) : ReadsAs (getterOpcode f) 0#8 0#16 (getterOf f) := by
  intro variant aux
  cases f <;> simp [decode, getterOpcode, getterOf]

theorem exec_getterOf (f : Field) (s : State) :
    exec (getterOf f) s = .next (afterBus (memRead (fieldReg s.params.layout f) s) fun b t =>
      respondOk (zext32 (extractField s.params.layout f b)) t) := by
  cases f <;> rfl

/-- Settles O20: one byte read, and the field of the byte as a number. -/
theorem fieldGettersReturnField : Obligations.FieldGettersReturnField := by
  refine fun f s => ⟨readsAs_getterOf f, ?_⟩
  rw [← extractField_toNat, ← zext32_eq_ofNat]
  exact byteReadEffect_of_exec (next := fun b _ => zext32 (extractField s.params.layout f b)) (exec_getterOf f s)

/-! ## GET_CONF and SET_CONF -/

theorem readsAs_getConf : ReadsAs 0x1E#8 0#8 0#16 .getConf := by
  intro variant aux
  simp [decode]

theorem readsAs_setConf (v : Half) : ReadsAs 0x1F#8 0#8 v (.setConf v) := by
  intro variant aux
  simp [decode]

theorem exec_getConf (s : State) :
    exec .getConf s = .next (afterBus (readPair .w14 0x07#8 s) fun v t => respondOk (zext32 v) t) := rfl

theorem exec_setConf (v : Half) (s : State) :
    exec (.setConf v) s = .next (if over14 v || !confAccepts s.params.layout v then raiseInvalidArgument s
      else afterBus (writePair .w14 0x07#8 v s) fun _ t => respondOk 0#32 t) := rfl

/-- SET_CONF's check takes every sub-field of the word as a number (R140). -/
theorem confAccepts_iff (l : ConfLayout) (v : Half) :
    confAccepts l v = true ↔ ∀ f, v.toNat / 2 ^ fieldWordShift l f % 2 ^ fieldWidth f < fieldValidCount f := by
  simp only [confAccepts, confFieldAccepts, List.all_eq_true, mem_allFields, forall_const, decide_eq_true_iff,
    getBitfield_fieldMask_toNat]

theorem setConf_refused_iff (l : ConfLayout) (v : Half) :
    (over14 v || !confAccepts l v) = true ↔
      0x3FFF < v.toNat ∨ ∃ f, fieldValidCount f ≤ v.toNat / 2 ^ fieldWordShift l f % 2 ^ fieldWidth f := by
  rw [Bool.or_eq_true_iff, over14_iff, Bool.not_eq_true', ← Bool.not_eq_true, confAccepts_iff, not_forall]
  simp only [Nat.not_lt]

theorem exec_setConf_refused {v : Half} {s : State}
    (h : 0x3FFF < v.toNat ∨
      ∃ f, fieldValidCount f ≤ v.toNat / 2 ^ fieldWordShift s.params.layout f % 2 ^ fieldWidth f) :
    exec (.setConf v) s = .next (invalidOf s) := by
  rw [exec_setConf, if_pos ((setConf_refused_iff s.params.layout v).2 h), raiseInvalidArgument_eq_invalidOf]

theorem pairWriteEffect_setConf {v : Half} {s : State} (hv : v.toNat ≤ 0x3FFF)
    (hfields : ∀ f, v.toNat / 2 ^ fieldWordShift s.params.layout f % 2 ^ fieldWidth f < fieldValidCount f) :
    PairWriteEffect (.setConf v) 0x07#8 v s := by
  refine pairWriteEffect_of_exec (w := .w14) (Nat.lt_succ_of_le hv) ?_
  rw [exec_setConf, if_neg (mt (setConf_refused_iff s.params.layout v).1 ?_)]
  exact not_or.2 ⟨Nat.not_lt.2 hv, fun ⟨f, hf⟩ => (hfields f).not_ge hf⟩

/-- Settles O22: GET_CONF is one pair read; SET_CONF is R140's checks, then one pair write. -/
theorem confWordAccess : Obligations.ConfWordAccess := fun v s =>
  ⟨readsAs_getConf, readsAs_setConf v, pairReadEffect_value (w := .w14) (exec_getConf s), exec_setConf_refused,
    pairWriteEffect_setConf⟩

end Sys2Proof.Machine
end

section
/-! PROOFS of the statements about the position registers (`42_position_registers.md`): a pass-through read answers its
whole byte; the three getters share one read of a fixed pair and the three setters one checked write of it. -/

namespace Sys2Proof.Machine

open Sys2Proof.Claims

/-! ## GET_ZPOS, GET_MPOS and GET_MANG -/

/-- A command that is one read of a fixed pair answers the number of its two bytes (R151, R157). -/
theorem pairReadEffect_of_readFixedPair {i : Instr} {reg : Byte} {s : State}
    (h : exec i s = .next (readFixedPair reg s)) :
    PairReadEffect i reg (BitVec.ofNat 32 (pairRead 12 s reg)) s :=
  pairReadEffect_value (w := .w12) h

theorem readsAs_getZpos : ReadsAs 0x21#8 0#8 0#16 .getZpos := by
  intro variant aux
  simp [decode]

theorem readsAs_getMpos : ReadsAs 0x23#8 0#8 0#16 .getMpos := by
  intro variant aux
  simp [decode]

theorem readsAs_getMang : ReadsAs 0x25#8 0#8 0#16 .getMang := by
  intro variant aux
  simp [decode]

theorem exec_getZpos (s : State) : exec .getZpos s = .next (readFixedPair 0x01#8 s) := rfl

theorem exec_getMpos (s : State) : exec .getMpos s = .next (readFixedPair 0x03#8 s) := rfl

theorem exec_getMang (s : State) : exec .getMang s = .next (readFixedPair 0x05#8 s) := rfl

/-- Settles O25: each getter is one read of its fixed pair. -/
theorem positionGettersReadPairs : Obligations.PositionGettersReadPairs := fun s =>
  ⟨readsAs_getZpos, readsAs_getMpos, readsAs_getMang, pairReadEffect_of_readFixedPair (exec_getZpos s),
    pairReadEffect_of_readFixedPair (exec_getMpos s), pairReadEffect_of_readFixedPair (exec_getMang s)⟩

/-! ## SET_ZPOS, SET_MPOS and SET_MANG -/

theorem writeFixedPair_refused {v : Half} (reg : Byte) (s : State) (hv : 0x0FFF < v.toNat) :
    writeFixedPair reg v s = invalidOf s :=
  if_pos ((over12_iff v).2 hv)

theorem writeFixedPair_accepted {v : Half} (reg : Byte) (s : State) (hv : v.toNat ≤ 0x0FFF) :
    writeFixedPair reg v s = afterBus (writePair .w12 reg v s) fun _ t => respondOk 0#32 t :=
  if_neg (mt (over12_iff v).1 (Nat.not_lt.2 hv))

/-- A command that is one checked write of a fixed pair refuses a value over 12 bits (R152). -/
theorem exec_refused_of_writeFixedPair {i : Instr} {reg : Byte} {v : Half} {s : State}
    (h : exec i s = .next (writeFixedPair reg v s)) (hv : 0x0FFF < v.toNat) : exec i s = .next (invalidOf s) := by
  rw [h, writeFixedPair_refused reg s hv]

/-- A command that is one checked write of a fixed pair writes every value of at most 12 bits (R152). -/
theorem pairWriteEffect_of_writeFixedPair {i : Instr} {reg : Byte} {v : Half} {s : State}
    (h : exec i s = .next (writeFixedPair reg v s)) (hv : v.toNat ≤ 0x0FFF) : PairWriteEffect i reg v s := by
  refine pairWriteEffect_of_exec (w := .w12) (Nat.lt_succ_of_le hv) ?_
  rw [h, writeFixedPair_accepted reg s hv]

theorem readsAs_setZpos (v : Half) : ReadsAs 0x22#8 0#8 v (.setZpos v) := by
  intro variant aux
  simp [decode]

theorem readsAs_setMpos (v : Half) : ReadsAs 0x24#8 0#8 v (.setMpos v) := by
  intro variant aux
  simp [decode]

theorem readsAs_setMang (v : Half) : ReadsAs 0x26#8 0#8 v (.setMang v) := by
  intro variant aux
  simp [decode]

theorem exec_setZpos (v : Half) (s : State) : exec (.setZpos v) s = .next (writeFixedPair 0x01#8 v s) := rfl

theorem exec_setMpos (v : Half) (s : State) : exec (.setMpos v) s = .next (writeFixedPair 0x03#8 v s) := rfl

theorem exec_setMang (v : Half) (s : State) : exec (.setMang v) s = .next (writeFixedPair 0x05#8 v s) := rfl

/-- Settles O26: each setter is one checked write of its fixed pair, refused or accepted by the bound on `v`. -/
theorem positionSettersWritePairs : Obligations.PositionSettersWritePairs := by
  refine fun v s => ⟨readsAs_setZpos v, readsAs_setMpos v, readsAs_setMang v, fun hv => ⟨?_, ?_, ?_⟩,
    fun hv => ⟨?_, ?_, ?_⟩⟩
  · exact exec_refused_of_writeFixedPair (exec_setZpos v s) hv
  · exact exec_refused_of_writeFixedPair (exec_setMpos v s) hv
  · exact exec_refused_of_writeFixedPair (exec_setMang v s) hv
  · exact pairWriteEffect_of_writeFixedPair (exec_setZpos v s) hv
  · exact pairWriteEffect_of_writeFixedPair (exec_setMpos v s) hv
  · exact pairWriteEffect_of_writeFixedPair (exec_setMang v s) hv

/-! ## GET_ZMCO and READ_AGC -/

theorem zextByte_eq_ofNat (b : Byte) : zextByte b = BitVec.ofNat 32 b.toNat := (BitVec.ofNat_toNat 32 b).symm

/-- A command that reads one byte and answers all 8 bits of it (R150, R203). -/
theorem byteReadEffect_value {i : Instr} {reg : Byte} {s : State}
    (h : exec i s = .next (afterBus (memRead reg s) fun b t => respondOk (zextByte b) t)) :
    ByteReadEffect i reg (BitVec.ofNat 32 (answerByte s 1 reg).toNat) s := by
  rw [← zextByte_eq_ofNat]
  exact byteReadEffect_of_exec (next := fun b _ => zextByte b) h

theorem readsAs_getZmco : ReadsAs 0x20#8 0#8 0#16 .getZmco := by
  intro variant aux
  simp [decode]

theorem readsAs_readAgc : ReadsAs 0x41#8 0#8 0#16 .readAgc := by
  intro variant aux
  simp [decode]

theorem exec_getZmco (s : State) :
    exec .getZmco s = .next (afterBus (memRead 0x00#8 s) fun b t => respondOk (zextByte b) t) := rfl

theorem exec_readAgc (s : State) :
    exec .readAgc s = .next (afterBus (memRead 0x1A#8 s) fun b t => respondOk (zextByte b) t) := rfl

/-- Settles O24: each of the two is one byte read, answered whole. -/
theorem byteRegistersPassThrough : Obligations.ByteRegistersPassThrough := fun s =>
  ⟨readsAs_getZmco, readsAs_readAgc, byteReadEffect_value (exec_getZmco s), byteReadEffect_value (exec_readAgc s)⟩

end Sys2Proof.Machine
end

section
/-! PROOFS of the statements about the angle, the offset and the samples (`43_angle_offset.md`): the angle reads are
reads of a fixed pair; the offset and its degrees are numbers; the wrapped difference and the deltas of a sample are
said once as integers, for every command that reports them. -/

namespace Sys2Proof.Machine

open Sys2Proof.Claims

/-! ## RAW_ANGLE, ANGLE and READ_MAGNITUDE -/

theorem readsAs_rawAngle : ReadsAs 0x30#8 0#8 0#16 .rawAngle := by
  intro variant aux
  simp [decode]

theorem readsAs_angle : ReadsAs 0x31#8 0#8 0#16 .angle := by
  intro variant aux
  simp [decode]

theorem readsAs_readMagnitude : ReadsAs 0x42#8 0#8 0#16 .readMagnitude := by
  intro variant aux
  simp [decode]

theorem exec_rawAngle (s : State) : exec .rawAngle s = .next (readFixedPair 0x0C#8 s) := rfl

theorem exec_angle (s : State) : exec .angle s = .next (readFixedPair 0x0E#8 s) := rfl

theorem exec_readMagnitude (s : State) : exec .readMagnitude s = .next (readFixedPair 0x1B#8 s) := rfl

/-- Settles O27: each of the three is one read of its fixed pair, whose number names no `OFFSET`. -/
theorem angleReadsIgnoreOffset : Obligations.AngleReadsIgnoreOffset := fun s =>
  ⟨readsAs_rawAngle, readsAs_angle, readsAs_readMagnitude, pairReadEffect_of_readFixedPair (exec_rawAngle s),
    pairReadEffect_of_readFixedPair (exec_angle s), pairReadEffect_of_readFixedPair (exec_readMagnitude s)⟩

/-! ## EFF_ANGLE -/

theorem readsAs_effAngle : ReadsAs 0x32#8 0#8 0#16 .effAngle := by
  intro variant aux
  simp [decode]

theorem exec_effAngle (s : State) :
    exec .effAngle s = .next (afterBus (readPair .w12 0x0C#8 s) fun r t =>
      respondOk (BitVec.ofNat 32 (effectiveAngle r.toNat t.offset.toNat)) t) := rfl

/-- The value of a 12-bit pair that a successful read returns, as a number. -/
theorem pairValue12_toNat_eq_pairRead (s : State) (reg : Byte) :
    (pairValue .w12 (answerByte s 1 reg) (answerByte s 3 (reg + 1#8))).toNat = pairRead 12 s reg :=
  pairValue_toNat .w12 _ _

/-- Settles O28: one read of the pair at 0x0C, whose transactions leave the `OFFSET` that is added. -/
theorem effectiveAngleAddsOffset : Obligations.EffectiveAngleAddsOffset := by
  refine fun s => ⟨readsAs_effAngle, ?_⟩
  rw [← pairValue12_toNat_eq_pairRead]
  exact pairReadEffect_of_exec (next := fun r t => BitVec.ofNat 32 (effectiveAngle r.toNat t.offset.toNat))
    (exec_effAngle s)

/-! ## SET_OFFSET_RAW and GET_OFFSET_RAW -/

theorem readsAs_setOffsetRaw (v : Half) : ReadsAs 0x33#8 0#8 v (.setOffsetRaw v) := by
  intro variant aux
  simp [decode]

theorem readsAs_getOffsetRaw : ReadsAs 0x34#8 0#8 0#16 .getOffsetRaw := by
  intro variant aux
  simp [decode]

theorem exec_setOffsetRaw (v : Half) (s : State) :
    exec (.setOffsetRaw v) s = .next (if over12 v then raiseInvalidArgument s
      else respondOk 0#32 { s with offset := toAngle v }) := rfl

theorem exec_getOffsetRaw (s : State) :
    exec .getOffsetRaw s = .next (respondOk (s.offset.setWidth 32) s) := rfl

theorem toAngle_eq_ofNat (v : Half) : toAngle v = BitVec.ofNat 12 v.toNat := (BitVec.ofNat_toNat 12 v).symm

/-- Settles O29: the check of R170, then the one register written or read. -/
theorem rawOffsetAccess : Obligations.RawOffsetAccess := by
  refine fun v s => ⟨readsAs_setOffsetRaw v, readsAs_getOffsetRaw, fun hv => ?_, fun hv => ?_, ?_⟩
  · rw [exec_setOffsetRaw, if_pos ((over12_iff v).2 hv), raiseInvalidArgument_eq_invalidOf]
  · rw [exec_setOffsetRaw, if_neg (mt (over12_iff v).1 (Nat.not_lt.2 hv)), toAngle_eq_ofNat, respondOk_eq_okWith]
  · rw [exec_getOffsetRaw, ← BitVec.ofNat_toNat, respondOk_eq_okWith]

/-! ## SET_OFFSET_CDEG -/

theorem decode_setOffsetCdeg (variant : Variant) (c : Word) :
    decode variant ⟨cmdWord 0x35#8 0#8 0#16, c⟩ = .instr (.setOffsetCdeg c) := by
  simp [decode]

theorem exec_setOffsetCdeg (c : Word) (s : State) :
    exec (.setOffsetCdeg c) s = .next (if overOffsetBound s.params (signedCdeg c) then raiseInvalidArgument s
      else respondOk 0#32 { s with offset := BitVec.ofNat 12 (cdegToRaw (signedCdeg c)) }) := rfl

/-- R67's reading of `AUX` is two's complement. -/
theorem signedCdeg_eq_toInt (c : Word) : signedCdeg c = c.toInt := (BitVec.toInt_eq_msb_cond c).symm

theorem overOffsetBound_iff (p : Params) (c : Int) :
    overOffsetBound p c = true ↔ 36000 + p.offsetTolCdeg < c.natAbs := decide_eq_true_iff

/-- `roundNearest` with R173's scale is strictly nearest: 1125 is odd, so no tie occurs (R176). -/
theorem roundNearest_cdeg_nearest (c : Int) :
    2 * (1125 * roundNearest (c * 128) 1125 - 128 * c).natAbs < 1125 := by
  rw [roundNearest]
  omega

/-- The mod 4096 of R173 is what 12 bits keep. -/
theorem ofNat_cdegToRaw (c : Int) :
    BitVec.ofNat 12 (cdegToRaw c) = BitVec.ofInt 12 (roundNearest (c * 128) 1125) := by
  apply BitVec.eq_of_toNat_eq
  rw [BitVec.toNat_ofNat, BitVec.toNat_ofInt, cdegToRaw]
  omega

theorem exec_setOffsetCdeg_refused {c : Word} {s : State} (hc : 36000 + s.params.offsetTolCdeg < c.toInt.natAbs) :
    exec (.setOffsetCdeg c) s = .next (invalidOf s) := by
  rw [exec_setOffsetCdeg, signedCdeg_eq_toInt, if_pos ((overOffsetBound_iff _ _).2 hc),
    raiseInvalidArgument_eq_invalidOf]

theorem exec_setOffsetCdeg_accepted {c : Word} {s : State} (hc : c.toInt.natAbs ≤ 36000 + s.params.offsetTolCdeg) :
    exec (.setOffsetCdeg c) s =
      .next (okWith 0#32 { s with offset := BitVec.ofInt 12 (roundNearest (c.toInt * 128) 1125) }) := by
  rw [exec_setOffsetCdeg, signedCdeg_eq_toInt, if_neg (mt (overOffsetBound_iff _ _).1 (Nat.not_lt.2 hc)),
    ofNat_cdegToRaw, respondOk_eq_okWith]

/-- Settles O30: the bound of R172, then R173's rounding, nearest without a tie. -/
theorem centidegreeOffsetIsNearest : Obligations.CentidegreeOffsetIsNearest := fun c _ =>
  ⟨fun variant => decode_setOffsetCdeg variant c, exec_setOffsetCdeg_refused, fun hc =>
    ⟨_, roundNearest_cdeg_nearest c.toInt, exec_setOffsetCdeg_accepted hc⟩⟩

/-! ## GET_OFFSET_DEG and TO_DEG -/

theorem readsAs_getOffsetDeg : ReadsAs 0x36#8 0#8 0#16 .getOffsetDeg := by
  intro variant aux
  simp [decode]

theorem readsAs_toDeg (v : Half) : ReadsAs 0x37#8 0#8 v (.toDeg v) := by
  intro variant aux
  simp [decode]

theorem exec_getOffsetDeg (s : State) :
    exec .getOffsetDeg s = .next (okWith (BitVec.ofNat 32 (s.offset.toNat * 45)) s) := rfl

theorem exec_toDeg (v : Half) (s : State) :
    exec (.toDeg v) s = .next (if over12 v then raiseInvalidArgument s
      else okWith (BitVec.ofNat 32 (v.toNat * 45)) s) := rfl

/-- Settles O32: GET_OFFSET_DEG is the scaled register; TO_DEG is the check of R177, then the scaled operand. -/
theorem degreeOutputsAreExact : Obligations.DegreeOutputsAreExact := by
  refine fun v s => ⟨readsAs_getOffsetDeg, readsAs_toDeg v, exec_getOffsetDeg s, fun hv => ?_, fun hv => ?_⟩
  · rw [exec_toDeg, if_pos ((over12_iff v).2 hv), raiseInvalidArgument_eq_invalidOf]
  · rw [exec_toDeg, if_neg (mt (over12_iff v).1 (Nat.not_lt.2 hv))]

/-! ## WRAP_DELTA -/

/-- Everything the wrapped difference can be: the plain one, or a turn less or more (R179). -/
theorem wrapDelta_cases (cur last : Int) :
    (2048 < cur - last ∧ wrapDelta cur last = cur - last - 4096) ∨
    (cur - last < -2048 ∧ wrapDelta cur last = cur - last + 4096) ∨
    (-2048 ≤ cur - last ∧ cur - last ≤ 2048 ∧ wrapDelta cur last = cur - last) := by
  rw [wrapDelta]
  split_ifs <;> omega

/-- The wrapped difference of two angles lies within half a turn either way (R179). -/
theorem wrapDelta_bounds {cur last : Nat} (hcur : cur ≤ 0x0FFF) (hlast : last ≤ 0x0FFF) :
    -2048 ≤ wrapDelta cur last ∧ wrapDelta cur last ≤ 2048 := by
  have hcases := wrapDelta_cases cur last
  omega

/-- The wrapped difference is a positive half turn exactly where the plain difference is (R179). -/
theorem wrapDelta_eq_half_turn_iff {cur last : Nat} (hcur : cur ≤ 0x0FFF) (hlast : last ≤ 0x0FFF) :
    wrapDelta cur last = 2048 ↔ (cur : Int) - last = 2048 := by
  have hcases := wrapDelta_cases cur last
  omega

/-- The wrapped difference is a negative half turn exactly where the plain difference is (R179). -/
theorem wrapDelta_eq_neg_half_turn_iff {cur last : Nat} (hcur : cur ≤ 0x0FFF) (hlast : last ≤ 0x0FFF) :
    wrapDelta cur last = -2048 ↔ (cur : Int) - last = -2048 := by
  have hcases := wrapDelta_cases cur last
  omega

/-- A wrapped difference is read back from its 32-bit pattern (R10). -/
theorem toInt_sext32_wrapDelta {cur last : Nat} (hcur : cur ≤ 0x0FFF) (hlast : last ≤ 0x0FFF) :
    (sext32 (wrapDelta cur last)).toInt = wrapDelta cur last := by
  obtain ⟨hlo, hhi⟩ := wrapDelta_bounds hcur hlast
  exact BitVec.toInt_ofInt_eq_self (by decide) (by norm_num; omega) (by norm_num; omega)

theorem decode_wrapDelta (variant : Variant) (cur : Half) (last : Word) :
    decode variant ⟨cmdWord 0x38#8 0#8 cur, last⟩ = .instr (.wrapDelta cur last) := by
  simp [decode]

theorem exec_wrapDelta (cur : Half) (last : Word) (s : State) :
    exec (.wrapDelta cur last) s = .next (if over12 cur || over12Word last then raiseInvalidArgument s
      else respondOk (sext32 (wrapDelta cur.toNat last.toNat)) s) := rfl

theorem wrapDelta_refused_iff (cur : Half) (last : Word) :
    (over12 cur || over12Word last) = true ↔ 0x0FFF < cur.toNat ∨ 0x0FFF < last.toNat := by
  rw [Bool.or_eq_true_iff, over12_iff, over12Word, decide_eq_true_iff]

theorem exec_wrapDelta_refused {cur : Half} {last : Word} (s : State)
    (h : 0x0FFF < cur.toNat ∨ 0x0FFF < last.toNat) : exec (.wrapDelta cur last) s = .next (invalidOf s) := by
  rw [exec_wrapDelta, if_pos ((wrapDelta_refused_iff cur last).2 h), raiseInvalidArgument_eq_invalidOf]

theorem exec_wrapDelta_accepted {cur : Half} {last : Word} (s : State) (hcur : cur.toNat ≤ 0x0FFF)
    (hlast : last.toNat ≤ 0x0FFF) :
    exec (.wrapDelta cur last) s = .next (okWith (sext32 (wrapDelta cur.toNat last.toNat)) s) := by
  have haccepted := mt (wrapDelta_refused_iff cur last).1 (not_or.2 ⟨Nat.not_lt.2 hcur, Nat.not_lt.2 hlast⟩)
  rw [exec_wrapDelta, if_neg haccepted, respondOk_eq_okWith]

/-- Settles O33: the checks of R180, then R179's difference, read back from its 32-bit pattern. -/
theorem wrapDeltaIsShortestPath : Obligations.WrapDeltaIsShortestPath := by
  refine fun cur last s => ⟨fun variant => decode_wrapDelta variant cur last, exec_wrapDelta_refused s,
    fun hcur hlast => ⟨_, exec_wrapDelta_accepted s hcur hlast, ?_⟩⟩
  have hbounds := wrapDelta_bounds hcur hlast
  have hpos := wrapDelta_eq_half_turn_iff hcur hlast
  have hneg := wrapDelta_eq_neg_half_turn_iff hcur hlast
  rw [toInt_sext32_wrapDelta hcur hlast]
  exact ⟨rfl, hbounds.1, hbounds.2, hpos.2, hneg.2, hpos.1, hneg.1⟩

/-! ## The deltas of a sample (R181) -/

/-- The elapsed time of a sample is R11's `mod`, as an integer. -/
theorem timeDelta_cast (p : Params) (now lt : Word) :
    (timeDelta p now lt : Int) = ((now.toNat : Int) - lt.toNat) % 2 ^ p.tsw := by
  have hpos : (0 : Int) < (2 ^ p.tsw : Nat) := by positivity
  rw [timeDelta, Int.toNat_of_nonneg (Int.emod_nonneg _ hpos.ne'), Nat.cast_pow, Nat.cast_ofNat]

theorem sampleDelta_none (p : Params) (r : Angle) (now : Word) : sampleDelta p none r now = (0, 0) := rfl

/-- A zero time step reports (0, 0), whatever the angles. -/
theorem sampleDelta_of_timeDelta_zero {p : Params} {old : Sample} {now : Word} (r : Angle)
    (h : timeDelta p now old.lastTime = 0) : sampleDelta p (some old) r now = (0, 0) :=
  if_pos h

theorem sampleDelta_of_timeDelta_ne_zero {p : Params} {old : Sample} {now : Word} (r : Angle)
    (h : timeDelta p now old.lastTime ≠ 0) :
    sampleDelta p (some old) r now = (wrapDelta r.toNat old.lastAngle.toNat, timeDelta p now old.lastTime) :=
  if_neg h

/-! ## SPEED_SAMPLE -/

theorem decode_speedSample (variant : Variant) (now : Word) :
    decode variant ⟨cmdWord 0x39#8 0#8 0#16, now⟩ = .instr (.speedSample now) := by
  simp [decode]

theorem exec_speedSample (now : Word) (s : State) : exec (.speedSample now) s = execSpeedSample now s := rfl

theorem overTsw_iff (p : Params) (now : Word) : overTsw p now = true ↔ 2 ^ p.tsw ≤ now.toNat := decide_eq_true_iff

theorem exec_speedSample_refused {now : Word} {s : State} (hnow : 2 ^ s.params.tsw ≤ now.toNat) :
    exec (.speedSample now) s = .next (invalidOf s) := by
  rw [exec_speedSample, execSpeedSample, if_pos ((overTsw_iff _ now).2 hnow), raiseInvalidArgument_eq_invalidOf]

theorem failSample_afterCalls (now : Word) (s : State) (n : Nat) (code : Byte) (calls : List Event) :
    failSample now (afterCalls s n code calls) = busErrorOf { afterCalls s n code calls with
      hist := some ⟨Config.drawAngle (s.draws + n), now⟩, draws := s.draws + n + 1 } := rfl

theorem finishSample_afterCalls (r : Angle) (now : Word) (s : State) (n : Nat) (code : Byte) (calls : List Event) :
    finishSample r now (afterCalls s n code calls) = { afterCalls s n code calls with
      hist := some ⟨r, now⟩
      response := some ⟨.ok, sext32 (sampleDelta s.params s.hist r now).1,
        BitVec.ofNat 32 (sampleDelta s.params s.hist r now).2⟩ } := rfl

/-- The angle read fails: `HIST` keeps a drawn angle (R181, D27). -/
theorem exec_speedSample_of_failsAt {now : Word} {s : State} {k : Nat} (hnow : now.toNat < 2 ^ s.params.tsw)
    (hk : k < 4) (hf : FailsAt s k) :
    exec (.speedSample now) s = .next (busErrorOf
      { afterCalls s (k + 1) (answerStatus s k) (pairFailCalls s 0x0C#8 k) with
        hist := some ⟨Config.drawAngle (s.draws + (k + 1)), now⟩, draws := s.draws + (k + 1) + 1 }) := by
  rw [exec_speedSample, execSpeedSample, if_neg (mt (overTsw_iff _ now).1 (Nat.not_le.2 hnow)),
    readPair_of_failsAt .w12 0x0C#8 hk hf, ← failSample_afterCalls]

/-- The angle read succeeds with `r`: the deltas against `HIST` are reported and the sample recorded (R181). -/
theorem exec_speedSample_of_succeed {now : Word} {s : State} {r : Angle} (hnow : now.toNat < 2 ^ s.params.tsw)
    (hs : Succeed s 4) (hr : r = BitVec.ofNat 12 (pairRead 12 s 0x0C#8)) :
    exec (.speedSample now) s = .next { afterCalls s 4 0#8 (pairReadCalls s 0x0C#8) with
      hist := some ⟨r, now⟩
      response := some ⟨.ok, sext32 (sampleDelta s.params s.hist r now).1,
        BitVec.ofNat 32 (sampleDelta s.params s.hist r now).2⟩ } := by
  rw [exec_speedSample, execSpeedSample, if_neg (mt (overTsw_iff _ now).1 (Nat.not_le.2 hnow)),
    readPair_of_succeed .w12 0x0C#8 hs, ← finishSample_afterCalls, hr, ← pairValue12_toNat_eq_pairRead,
    ← toAngle_eq_ofNat]

theorem pairRead12_lt (s : State) (reg : Byte) : pairRead 12 s reg < 2 ^ 12 := by
  have hlo := (answerByte s 3 (reg + 1#8)).isLt
  rw [pairRead, pairNumber]
  omega

/-- Settles O35: the bound of R181, then the pair at 0x0C by its first failing transaction; the deltas against `HIST`
are `sampleDelta`, by the three cases of its definition. -/
theorem speedSampleMeasuresAndRecords : Obligations.SpeedSampleMeasuresAndRecords := by
  refine fun now s => ⟨fun variant => decode_speedSample variant now, exec_speedSample_refused, fun hnow =>
    ⟨fun k hk hf => ⟨_, exec_speedSample_of_failsAt hnow hk hf⟩, fun hs => ?_⟩⟩
  refine ⟨_, _, exec_speedSample_of_succeed hnow hs rfl, fun hfirst => ?_, fun la lt hold =>
    ⟨fun hzero => ?_, fun hstep => ?_⟩⟩
  · rw [hfirst, sampleDelta_none]
    exact ⟨rfl, rfl⟩
  · rw [← timeDelta_cast, Nat.cast_eq_zero] at hzero
    rw [hold, sampleDelta_of_timeDelta_zero _ hzero]
    exact ⟨rfl, rfl⟩
  · rw [← timeDelta_cast, Nat.cast_ne_zero] at hstep
    rw [hold, sampleDelta_of_timeDelta_ne_zero _ hstep, BitVec.toNat_ofNat,
      Nat.mod_eq_of_lt (pairRead12_lt s 0x0C#8), ← timeDelta_cast]
    exact ⟨rfl, (BitVec.ofInt_natCast 32 _).symm⟩

end Sys2Proof.Machine
end

section
/-! PROOFS of the statement about the Status Decoder (`44_status.md`): a flag is a mask that meets the byte, and the
flags word holds each flag in a bit of its own. -/

namespace Sys2Proof.Machine

open Sys2Proof.Claims

/-! ## READ_STATUS_FLAGS -/

theorem flagSet_iff (b mask : Byte) : flagSet b mask = true ↔ b &&& mask ≠ 0#8 := bne_iff_ne

/-- The low bits of the flags word are those of R202's concatenation, its width written as the sum of its parts'. -/
theorem getLsbD_flagsWord (f : MagnetFlags) {k : Nat} (hk : k < 3) : (flagsWord f).getLsbD k =
    (BitVec.ofBool f.tooStrong ++ BitVec.ofBool f.tooWeak ++ BitVec.ofBool f.detected).getLsbD k := by
  rw [flagsWord, BitVec.getLsbD_setWidth, decide_eq_true (by omega), Bool.true_and]

theorem getLsbD_zero_flagsWord (f : MagnetFlags) : (flagsWord f).getLsbD 0 = f.detected := by
  rw [getLsbD_flagsWord f (by decide), BitVec.getLsbD_append]
  simp

theorem getLsbD_one_flagsWord (f : MagnetFlags) : (flagsWord f).getLsbD 1 = f.tooWeak := by
  rw [getLsbD_flagsWord f (by decide), BitVec.getLsbD_append, BitVec.getLsbD_append]
  simp

theorem getLsbD_two_flagsWord (f : MagnetFlags) : (flagsWord f).getLsbD 2 = f.tooStrong := by
  rw [getLsbD_flagsWord f (by decide), BitVec.getLsbD_append, BitVec.getLsbD_append]
  simp

/-- The flags word is three bits wide (R202). -/
theorem flagsWord_toNat_lt (f : MagnetFlags) : (flagsWord f).toNat < 8 :=
  (BitVec.toNat_setWidth_of_le (by decide)).trans_lt (BitVec.isLt _)

theorem readsAs_readStatusFlags : ReadsAs 0x40#8 0#8 0#16 .readStatusFlags := by
  intro variant aux
  simp [decode]

theorem exec_readStatusFlags (s : State) :
    exec .readStatusFlags s = .next (afterBus (memRead 0x0B#8 s) fun b t =>
      respondOk (flagsWord (decodeStatus t.params.statusMasks b)) t) := rfl

/-- Settles O38: one byte read, whose answer holds R201's three flags in the bits R202 gives them. -/
theorem statusFlagsAreIndependent : Obligations.StatusFlagsAreIndependent := by
  refine ⟨readsAs_readStatusFlags, fun s => ⟨_, byteReadEffect_of_exec
    (next := fun b t => flagsWord (decodeStatus t.params.statusMasks b)) (exec_readStatusFlags s),
    ?detected, ?tooWeak, ?tooStrong, flagsWord_toNat_lt _⟩⟩
  case detected =>
    rw [getLsbD_zero_flagsWord]
    exact flagSet_iff _ _
  case tooWeak =>
    rw [getLsbD_one_flagsWord]
    exact flagSet_iff _ _
  case tooStrong =>
    rw [getLsbD_two_flagsWord]
    exact flagSet_iff _ _

end Sys2Proof.Machine
end

section
/-! PROOFS of the statements about the Device Handle's registers (`45_handle.md`): two reads that change nothing, and
the one writer of `ADDR`, by its variant and its range. PROBE stands with the bus accesses. -/

namespace Sys2Proof.Machine

open Sys2Proof.Claims

/-! ## GET_ADDRESS and GET_LAST_ERROR -/

theorem readsAs_getAddress : ReadsAs 0x51#8 0#8 0#16 .getAddress := by
  intro variant aux
  simp [decode]

theorem readsAs_getLastError : ReadsAs 0x53#8 0#8 0#16 .getLastError := by
  intro variant aux
  simp [decode]

theorem exec_getAddress (s : State) :
    exec .getAddress s = .next (respondOk (s.addr.setWidth 32) s) := rfl

theorem exec_getLastError (s : State) :
    exec .getLastError s = .next (respondOk (zextByte s.lastErr) s) := rfl

/-- Settles O40: each of the two answers its register as a number, from the state it leaves. -/
theorem handleReadsChangeNothing : Obligations.HandleReadsChangeNothing := by
  refine ⟨readsAs_getAddress, readsAs_getLastError, fun s => ⟨?address, ?lastError⟩⟩
  case address => rw [exec_getAddress, ← BitVec.ofNat_toNat, respondOk_eq_okWith]
  case lastError => rw [exec_getLastError, zextByte_eq_ofNat, respondOk_eq_okWith]

/-! ## SET_ADDRESS -/

theorem decode_setAddress (v : Half) (aux : Word) :
    decode .addressable ⟨cmdWord 0x52#8 0#8 v, aux⟩ = .instr (.setAddress v) := by
  simp [decode]

theorem exec_setAddress_addressable (v : Half) {s : State} (hv : s.params.variant = .addressable) :
    exec (.setAddress v) s = .next (if outsideBusRange v then raiseInvalidArgument s
      else respondOk 0#32 { s with addr := toBusAddr v }) := by
  simp only [exec, execSetAddress, hv]

theorem outsideBusRange_iff (v : Half) : outsideBusRange v = true ↔ v.toNat < 0x08 ∨ 0x77 < v.toNat := by
  simp only [outsideBusRange, Bool.or_eq_true, decide_eq_true_eq, gt_iff_lt]

theorem toBusAddr_eq_ofNat (v : Half) : toBusAddr v = BitVec.ofNat 7 v.toNat := (BitVec.ofNat_toNat 7 v).symm

theorem exec_setAddress_refused {v : Half} {s : State} (hv : s.params.variant = .addressable)
    (hrange : v.toNat < 0x08 ∨ 0x77 < v.toNat) : exec (.setAddress v) s = .next (invalidOf s) := by
  rw [exec_setAddress_addressable v hv, if_pos ((outsideBusRange_iff v).2 hrange), raiseInvalidArgument_eq_invalidOf]

theorem exec_setAddress_accepted {v : Half} {s : State} (hv : s.params.variant = .addressable)
    (hlow : 0x08 ≤ v.toNat) (hhigh : v.toNat ≤ 0x77) :
    exec (.setAddress v) s = .next (okWith 0#32 { s with addr := BitVec.ofNat 7 v.toNat }) := by
  have hinside : ¬ outsideBusRange v = true := by
    rw [outsideBusRange_iff]
    omega
  rw [exec_setAddress_addressable v hv, if_neg hinside, toBusAddr_eq_ofNat, respondOk_eq_okWith]

/-- Settles O41: on the addressable variant the range of R212 decides; on BASE the decoder rejects the opcode. -/
theorem setAddressRebinds : Obligations.SetAddressRebinds := by
  refine ⟨decode_setAddress, fun v s hv => ⟨exec_setAddress_refused hv, exec_setAddress_accepted hv⟩, ?base⟩
  case base =>
    intro s c rest hbase hc hop
    refine step_of_illegal hc (why := .absentOnBase) ?_
    rw [hbase, decode_absentOnBase hop]

end Sys2Proof.Machine
end

section
/-! PROOFS of the statement about INVALID_ARGUMENT (`60_exceptions.md` R221). A command with operands to check is one
check, whose refusal changes nothing but the response, and then a part that answers something else. -/

namespace Sys2Proof.Machine

open Sys2Proof.Claims

/-! ## Answers other than INVALID_ARGUMENT -/

/-- The command ended with INVALID_ARGUMENT. -/
def AnswersInvalid (t : State) : Prop := ∃ r r2, t.response = some ⟨.invalidArgument, r, r2⟩

theorem not_answersInvalid_respond {status : Status} {r r2 : Word} {s : State} (h : status ≠ .invalidArgument) :
    ¬ AnswersInvalid (respond status r r2 s) := by
  rintro ⟨q, q2, hq⟩
  rw [respond_response, Option.some.injEq, Response.mk.injEq] at hq
  exact h hq.1

theorem not_answersInvalid_respondOk {r : Word} {s : State} : ¬ AnswersInvalid (respondOk r s) :=
  not_answersInvalid_respond (by decide)

theorem not_answersInvalid_raiseBusError {s : State} : ¬ AnswersInvalid (raiseBusError s) :=
  not_answersInvalid_respond (by decide)

/-- A failing access ends in BUS_ERROR, so only the rest of the command could answer INVALID_ARGUMENT. -/
theorem not_answersInvalid_afterBus {α : Type} {r : BusResult α} {next : α → State → State}
    (h : ∀ v t, ¬ AnswersInvalid (next v t)) : ¬ AnswersInvalid (afterBus r next) := by
  cases r with
  | done v t => exact h v t
  | failed t => exact not_answersInvalid_raiseBusError

theorem not_answersInvalid_access {α : Type} {r : BusResult α} {result : α → State → Word} :
    ¬ AnswersInvalid (afterBus r fun v t => respondOk (result v t) t) :=
  not_answersInvalid_afterBus fun _ _ => not_answersInvalid_respondOk

/-! ## Refusals -/

/-- From `s`, a command that ends in `t` answers INVALID_ARGUMENT exactly for this cause, and then changes nothing
else (R221). -/
def RefusedExactly (cause : Prop) (s t : State) : Prop :=
  (cause → t = invalidOf s) ∧ (AnswersInvalid t → cause)

/-- A command that never answers INVALID_ARGUMENT has no cause. -/
theorem refusedExactly_false {s t : State} (h : ¬ AnswersInvalid t) : RefusedExactly False s t :=
  ⟨False.elim, h⟩

/-- A check of the cause, then a part that does not answer INVALID_ARGUMENT. -/
theorem refusedExactly_of_check {cause : Prop} {refuse : Bool} {s t : State} (hcause : refuse = true ↔ cause)
    (ht : ¬ AnswersInvalid t) : RefusedExactly cause s (if refuse then raiseInvalidArgument s else t) := by
  cases refuse with
  | true => exact ⟨fun _ => rfl, fun _ => hcause.1 rfl⟩
  | false => exact ⟨fun h => absurd (hcause.2 h) Bool.false_ne_true, fun h => absurd h ht⟩

theorem setField_refusedExactly (f : Field) (v : Half) (s : State) :
    RefusedExactly (fieldValidCount f ≤ v.toNat) s (setField f v s) := by
  refine ⟨setField_refused s, fun h => ?_⟩
  by_contra hv
  rw [setField_accepted s (Nat.lt_of_not_le hv)] at h
  exact not_answersInvalid_afterBus (fun _ _ => not_answersInvalid_access) h

theorem readPairCommand_refusedExactly (w : PairWidth) (reg : Byte) (s : State) :
    RefusedExactly (0xFE ≤ reg.toNat) s (readPairCommand w reg s) :=
  refusedExactly_of_check (touchesBurn16_iff reg) not_answersInvalid_access

theorem writePairCommand_refusedExactly {tooWide : Bool} {max : Nat} {v : Half} (w : PairWidth) (reg : Byte) (s : State)
    (hwide : tooWide = true ↔ max < v.toNat) :
    RefusedExactly (0xFE ≤ reg.toNat ∨ max < v.toNat) s (writePairCommand w tooWide reg v s) :=
  refusedExactly_of_check ((pairWrite_refused_iff reg tooWide).trans (or_congr_right hwide)) not_answersInvalid_access

theorem writeFixedPair_refusedExactly (reg : Byte) (v : Half) (s : State) :
    RefusedExactly (0x0FFF < v.toNat) s (writeFixedPair reg v s) :=
  refusedExactly_of_check (over12_iff v) not_answersInvalid_access

theorem overOffsetBound_signedCdeg_iff (p : Params) (c : Word) :
    overOffsetBound p (signedCdeg c) = true ↔ 36000 + p.offsetTolCdeg < c.toInt.natAbs := by
  rw [signedCdeg_eq_toInt, overOffsetBound_iff]

/-- SPEED_SAMPLE past its check ends OK or in BUS_ERROR (R181). -/
theorem exec_speedSample_refusedExactly (now : Word) (s : State) :
    ∃ t, exec (.speedSample now) s = .next t ∧ RefusedExactly (2 ^ s.params.tsw ≤ now.toNat) s t := by
  refine ⟨_, rfl, refusedExactly_of_check (overTsw_iff s.params now) ?_⟩
  cases readPair .w12 0x0C#8 s with
  | done r t => exact not_answersInvalid_respond (by decide)
  | failed t => exact not_answersInvalid_raiseBusError

/-- SET_ADDRESS on BASE answers ILLEGAL_COMMAND whatever its operand, so only ADDRESSABLE has a cause (R212). -/
theorem exec_setAddress_refusedExactly (v : Half) (s : State) :
    ∃ t, exec (.setAddress v) s = .next t ∧
      RefusedExactly (s.params.variant = .addressable ∧ (v.toNat < 0x08 ∨ 0x77 < v.toNat)) s t := by
  refine ⟨_, rfl, ?_⟩
  split
  next hv =>
    exact ⟨fun h => absurd (hv.symm.trans h.1) (by decide), fun h => absurd h (not_answersInvalid_respond (by decide))⟩
  next hv =>
    exact refusedExactly_of_check ((outsideBusRange_iff v).trans (and_iff_right hv).symm) not_answersInvalid_respondOk

/-- Every command is executed, and refused exactly for its causes: each against R221's list. -/
theorem exec_refusedExactly (i : Instr) (s : State) :
    ∃ t, exec i s = .next t ∧ RefusedExactly (invalidCause s.params i) s t := by
  cases i with
  | read8 reg => exact ⟨_, rfl, refusedExactly_of_check (touchesBurn8_iff reg) not_answersInvalid_access⟩
  | write8 reg v => exact ⟨_, rfl, refusedExactly_of_check (write8_refused_iff reg v) not_answersInvalid_access⟩
  | read12 | read14 => exact ⟨_, rfl, readPairCommand_refusedExactly ..⟩
  | write12 reg v => exact ⟨_, rfl, writePairCommand_refusedExactly .w12 reg s (over12_iff v)⟩
  | write14 reg v => exact ⟨_, rfl, writePairCommand_refusedExactly .w14 reg s (over14_iff v)⟩
  | setPm v => exact ⟨_, rfl, setField_refusedExactly .pm v s⟩
  | setHyst v => exact ⟨_, rfl, setField_refusedExactly .hyst v s⟩
  | setOuts v => exact ⟨_, rfl, setField_refusedExactly .outs v s⟩
  | setPwmf v => exact ⟨_, rfl, setField_refusedExactly .pwmf v s⟩
  | setSf v => exact ⟨_, rfl, setField_refusedExactly .sf v s⟩
  | setFth v => exact ⟨_, rfl, setField_refusedExactly .fth v s⟩
  | setWd v => exact ⟨_, rfl, setField_refusedExactly .wd v s⟩
  | setConf v =>
    exact ⟨_, rfl, refusedExactly_of_check (setConf_refused_iff s.params.layout v) not_answersInvalid_access⟩
  | setZpos | setMpos | setMang => exact ⟨_, rfl, writeFixedPair_refusedExactly ..⟩
  | setOffsetRaw v | toDeg v => exact ⟨_, rfl, refusedExactly_of_check (over12_iff v) not_answersInvalid_respondOk⟩
  | setOffsetCdeg c =>
    exact ⟨_, rfl, refusedExactly_of_check (overOffsetBound_signedCdeg_iff s.params c) not_answersInvalid_respondOk⟩
  | wrapDelta cur last =>
    exact ⟨_, rfl, refusedExactly_of_check (wrapDelta_refused_iff cur last) not_answersInvalid_respondOk⟩
  | speedSample now => exact exec_speedSample_refusedExactly now s
  | setAddress v => exact exec_setAddress_refusedExactly v s
  | getPm | getHyst | getOuts | getPwmf | getSf | getFth | getWd | getConf | getZmco | getZpos | getMpos | getMang
  | rawAngle | angle | effAngle | readStatusFlags | readAgc | readMagnitude =>
    exact ⟨_, rfl, refusedExactly_false not_answersInvalid_access⟩
  | setbf | getbf | getOffsetRaw | getOffsetDeg | probe | getAddress | getLastError =>
    exact ⟨_, rfl, refusedExactly_false not_answersInvalid_respondOk⟩

/-- Settles O47: every command is refused exactly for its causes, and ends in one state. -/
theorem invalidArgumentExactly : Obligations.InvalidArgumentExactly := by
  intro i s t h
  obtain ⟨u, hu, hrefused⟩ := exec_refusedExactly i s
  obtain rfl : u = t := by simpa [hu] using h
  exact hrefused

end Sys2Proof.Machine
end

section
/-! PROOFS of the statements on what the encoder, the decoder and the assembler have in common (`30_encoding.md`): a row
of the opcode map says which fields of a command hold operands, and all three place the operands there. -/

namespace Sys2Proof.Machine

open Sys2Proof.Claims

/-! ## Decoding an encoded instruction -/

/-- The words the encoder writes decode to the instruction they stand for: each command by its own 'Encoding' line. -/
theorem decode_encode (variant : Variant) {i : Instr} (hi : i.wf variant = true) :
    decode variant (encode i) = .instr i := by
  cases i with
  | read8 reg => exact readsAs_read8 reg variant _
  | write8 reg v => exact readsAs_write8 reg v variant _
  | read12 reg => exact readsAs_read12 reg variant _
  | read14 reg => exact readsAs_read14 reg variant _
  | write12 reg v => exact readsAs_write12 reg v variant _
  | write14 reg v => exact readsAs_write14 reg v variant _
  | setbf shift cur mask new => exact decode_setbf variant shift cur mask new
  | getbf shift word mask => exact decode_getbf variant shift word mask 0#16
  | setPm v => exact readsAs_setterOf .pm v variant _
  | setHyst v => exact readsAs_setterOf .hyst v variant _
  | setOuts v => exact readsAs_setterOf .outs v variant _
  | setPwmf v => exact readsAs_setterOf .pwmf v variant _
  | setSf v => exact readsAs_setterOf .sf v variant _
  | setFth v => exact readsAs_setterOf .fth v variant _
  | setWd v => exact readsAs_setterOf .wd v variant _
  | getPm => exact readsAs_getterOf .pm variant _
  | getHyst => exact readsAs_getterOf .hyst variant _
  | getOuts => exact readsAs_getterOf .outs variant _
  | getPwmf => exact readsAs_getterOf .pwmf variant _
  | getSf => exact readsAs_getterOf .sf variant _
  | getFth => exact readsAs_getterOf .fth variant _
  | getWd => exact readsAs_getterOf .wd variant _
  | getConf => exact readsAs_getConf variant _
  | setConf v => exact readsAs_setConf v variant _
  | getZmco => exact readsAs_getZmco variant _
  | getZpos => exact readsAs_getZpos variant _
  | setZpos v => exact readsAs_setZpos v variant _
  | getMpos => exact readsAs_getMpos variant _
  | setMpos v => exact readsAs_setMpos v variant _
  | getMang => exact readsAs_getMang variant _
  | setMang v => exact readsAs_setMang v variant _
  | rawAngle => exact readsAs_rawAngle variant _
  | angle => exact readsAs_angle variant _
  | effAngle => exact readsAs_effAngle variant _
  | setOffsetRaw v => exact readsAs_setOffsetRaw v variant _
  | getOffsetRaw => exact readsAs_getOffsetRaw variant _
  | setOffsetCdeg c => exact decode_setOffsetCdeg variant c
  | getOffsetDeg => exact readsAs_getOffsetDeg variant _
  | toDeg v => exact readsAs_toDeg v variant _
  | wrapDelta cur last => exact decode_wrapDelta variant cur last
  | speedSample now => exact decode_speedSample variant now
  | readStatusFlags => exact readsAs_readStatusFlags variant _
  | readAgc => exact readsAs_readAgc variant _
  | readMagnitude => exact readsAs_readMagnitude variant _
  | probe => exact readsAs_probe variant _
  | getAddress => exact readsAs_getAddress variant _
  | setAddress v =>
    obtain rfl : variant = .addressable := by simpa [Instr.wf] using hi
    exact decode_setAddress v _
  | getLastError => exact readsAs_getLastError variant _

/-- Settles O2: each command by its own 'Encoding' line; SET_ADDRESS, which BASE lacks, on ADDRESSABLE. -/
theorem decodeInvertsEncode : Obligations.DecodeInvertsEncode := fun variant _ => decode_encode variant

/-! ## The fields of a decoded command -/

/-- What the encoder writes in `A` for a command of this form, read from the `A` it was decoded from. -/
def placedA (form : OperandForm) (a : Byte) : Byte :=
  match form with
  | .bare | .value | .centidegrees | .curLast | .timestamp => 0#8
  | .reg | .regValue => a
  | .setBitfield | .getBitfield => shiftByte (aShift a)

/-- What the encoder writes in `D` for a command of this form, read from the `D` it was decoded from. -/
def placedD (form : OperandForm) (d : Half) : Half :=
  match form with
  | .bare | .reg | .centidegrees | .timestamp => 0#16
  | .regValue | .value | .setBitfield | .getBitfield | .curLast => d

/-- Where the reserved fields are 0, the encoder's `A` and `D` are the command's own (R69). -/
theorem placed_eq {form : OperandForm} {a : Byte} {d : Half} (h : reservedFieldsZero form a d = true) :
    placedA form a = a ∧ placedD form d = d := by
  obtain ⟨ha, hd, hhigh⟩ := (reservedFieldsZero_iff form a d).1 h
  cases form with
  | bare | centidegrees | timestamp => exact ⟨(ha rfl).symm, (hd rfl).symm⟩
  | reg => exact ⟨rfl, (hd rfl).symm⟩
  | regValue => exact ⟨rfl, rfl⟩
  | value | curLast => exact ⟨(ha rfl).symm, rfl⟩
  | setBitfield | getBitfield => exact ⟨shiftByte_aShift (hhigh rfl), rfl⟩

/-- The operands in the fields of a command of this form, as numbers in R76's order. -/
def placedOperands (form : OperandForm) (c : Command) : List Int :=
  match form with
  | .bare => []
  | .reg => [(cmdA c.cmd).toNat]
  | .regValue => [(cmdA c.cmd).toNat, (cmdD c.cmd).toNat]
  | .value => [(cmdD c.cmd).toNat]
  | .setBitfield =>
    [(aShift (cmdA c.cmd)).toNat, (cmdD c.cmd).toNat, (auxLow c.aux).toNat, (auxHigh c.aux).toNat]
  | .getBitfield => [(aShift (cmdA c.cmd)).toNat, (cmdD c.cmd).toNat, (auxLow c.aux).toNat]
  | .centidegrees => [c.aux.toInt]
  | .curLast => [(cmdD c.cmd).toNat, c.aux.toNat]
  | .timestamp => [c.aux.toNat]

/-- The command is one that row `r` writes: `r`'s opcode, 0 in the reserved fields and in the unused bits of `AUX`. -/
structure WrittenBy (r : OpcodeRow) (c : Command) : Prop where
  op : cmdOp c.cmd = cmdOp r.pattern
  reserved : reservedFieldsZero r.form (cmdA c.cmd) (cmdD c.cmd) = true
  aux : usedAux r.form c.aux = c.aux

/-- Every `AUX` is its two halves (R66). -/
theorem auxPair_fields (aux : Word) : auxPair (auxHigh aux) (auxLow aux) = aux := by
  refine BitVec.eq_of_getLsbD_eq fun i hi => ?_
  rw [getLsbD_auxPair]
  by_cases h16 : i < 16
  · simp [h16, auxLow]
  · simp [h16, auxHigh, show i - 16 < 16 by omega, show 16 + (i - 16) = i by omega]

/-- What a word's row says of the instruction it decodes to: mnemonic, operands, and the words the encoder writes. -/
theorem decode_placed {variant : Variant} {c : Command} {r : OpcodeRow} (hr : r ∈ variantRows variant)
    (hop : cmdOp c.cmd = cmdOp r.pattern) :
    ∃ i, decode variant c = whenReservedZero (reservedFieldsZero r.form (cmdA c.cmd) (cmdD c.cmd)) i ∧
      i.wf variant = true ∧ mnemonicOf i = r.mnemonic ∧ operandsOf i = placedOperands r.form c ∧
      encode i = ⟨cmdWord (cmdOp r.pattern) (placedA r.form (cmdA c.cmd)) (placedD r.form (cmdD c.cmd)),
        usedAux r.form c.aux⟩ := by
  obtain ⟨hr, hv⟩ := mem_variantRows.1 hr
  unfold decode
  rw [hop]
  fin_cases hr
  -- SET_ADDRESS, row 47, has no meaning on BASE; SETBF, row 7, writes `AUX` by its halves.
  on_goal 47 =>
    cases variant
    · exact absurd rfl (hv rfl)
    · exact ⟨_, rfl, rfl, rfl, rfl, rfl⟩
  on_goal 7 => exact ⟨_, rfl, rfl, rfl, rfl, congrArg (Command.mk _) (auxPair_fields c.aux)⟩
  all_goals exact ⟨_, rfl, rfl, rfl, rfl, rfl⟩

/-- A word with the opcode of a row and 0 in its reserved fields decodes to the instruction of that row whose operands
and whose encoding are the word's. -/
theorem decode_of_reservedFieldsZero {variant : Variant} {c : Command} {r : OpcodeRow} (hr : r ∈ variantRows variant)
    (hop : cmdOp c.cmd = cmdOp r.pattern) (hz : reservedFieldsZero r.form (cmdA c.cmd) (cmdD c.cmd) = true) :
    ∃ i, decode variant c = .instr i ∧ i.wf variant = true ∧ mnemonicOf i = r.mnemonic ∧
      operandsOf i = placedOperands r.form c ∧ encode i = ⟨c.cmd, usedAux r.form c.aux⟩ := by
  obtain ⟨i, hdec, hwf, hname, hoperands, hencode⟩ := decode_placed hr hop
  obtain ⟨ha, hd⟩ := placed_eq hz
  rw [hz, whenReservedZero_true] at hdec
  rw [ha, hd, ← hop, cmdWord_fields] at hencode
  exact ⟨i, hdec, hwf, hname, hoperands, hencode⟩

/-- Only words with the opcode of a row and 0 in its reserved fields decode to an instruction. -/
theorem row_of_decode {variant : Variant} {c : Command} {i : Instr} (h : decode variant c = .instr i) :
    ∃ r ∈ variantRows variant, cmdOp c.cmd = cmdOp r.pattern ∧
      reservedFieldsZero r.form (cmdA c.cmd) (cmdD c.cmd) = true := by
  obtain ⟨r, hr, hop⟩ | hres | ⟨rfl, hop⟩ := cmdOp_cases variant (cmdOp c.cmd)
  · refine ⟨r, hr, hop, ?_⟩
    obtain ⟨j, hdec, -⟩ := decode_placed hr hop
    by_contra hnz
    rw [h, Bool.eq_false_of_not_eq_true hnz, whenReservedZero_false] at hdec
    exact Decoded.noConfusion hdec
  · exact Decoded.noConfusion (h.symm.trans (decode_of_reservedOpcode variant hres))
  · exact Decoded.noConfusion (h.symm.trans (decode_absentOnBase hop))

/-- Settles O4: the word has a row, and the encoder writes the operands where that row places them. -/
theorem decodedWordIsEncoded : Obligations.DecodedWordIsEncoded := by
  intro variant c i h
  obtain ⟨r, hr, hop, hz⟩ := row_of_decode h
  obtain ⟨j, hdec, hwf, -, -, hencode⟩ := decode_of_reservedFieldsZero hr hop hz
  obtain rfl : i = j := Decoded.instr.inj (h.symm.trans hdec)
  exact ⟨hwf, (congrArg Command.cmd hencode :)⟩

/-! ## The assembler -/

/-- A number fits an unsigned field of `w` bits exactly when it is the value of one (R77). -/
theorem fitsField_bind_iff {w max : Nat} {x : Int} {f : Nat → Option Command} {c : Command}
    (hmax : max = 2 ^ w - 1) :
    (fitsField max x).bind f = some c ↔ ∃ b : BitVec w, x = b.toNat ∧ f b.toNat = some c := by
  have hpos := Nat.two_pow_pos w
  simp only [fitsField, Option.bind_eq_some_iff, Option.ite_none_right_eq_some, Option.some.injEq]
  constructor
  · rintro ⟨n, ⟨hx, rfl⟩, hf⟩
    have hn : (BitVec.ofNat w x.toNat).toNat = x.toNat := Nat.mod_eq_of_lt (by omega)
    exact ⟨BitVec.ofNat w x.toNat, by omega, hn.symm ▸ hf⟩
  · rintro ⟨b, rfl, hf⟩
    have hb := b.isLt
    exact ⟨b.toNat, ⟨by omega, rfl⟩, hf⟩

/-- A number fits a signed field of 32 bits exactly when it is the value of one (R76, R77). -/
theorem fitsSigned_bind_iff {x : Int} {f : Word → Option Command} {c : Command} :
    (fitsSigned x).bind f = some c ↔ ∃ w : Word, x = w.toInt ∧ f w = some c := by
  simp only [fitsSigned, Option.bind_eq_some_iff, Option.ite_none_right_eq_some, Option.some.injEq]
  constructor
  · rintro ⟨-, ⟨⟨hlo, hhi⟩, rfl⟩, hf⟩
    exact ⟨_, (BitVec.toInt_ofInt_eq_self (by decide) (by simpa using hlo) (by norm_num at hhi ⊢; omega)).symm, hf⟩
  · rintro ⟨w, rfl, hf⟩
    have hlo := w.le_toInt
    have hhi := w.toInt_lt
    norm_num at hlo hhi
    exact ⟨w, ⟨by norm_num; omega, BitVec.ofInt_toInt⟩, hf⟩

theorem fitsShift_bind_iff {x : Int} {f : Nat → Option Command} {c : Command} :
    (fitsField 15 x).bind f = some c ↔ ∃ b : BitVec 4, x = b.toNat ∧ f b.toNat = some c :=
  fitsField_bind_iff rfl

theorem fitsByte_bind_iff {x : Int} {f : Nat → Option Command} {c : Command} :
    (fitsField 0xFF x).bind f = some c ↔ ∃ b : Byte, x = b.toNat ∧ f b.toNat = some c :=
  fitsField_bind_iff rfl

theorem fitsHalf_bind_iff {x : Int} {f : Nat → Option Command} {c : Command} :
    (fitsField 0xFFFF x).bind f = some c ↔ ∃ b : Half, x = b.toNat ∧ f b.toNat = some c :=
  fitsField_bind_iff rfl

theorem fitsWord_bind_iff {x : Int} {f : Nat → Option Command} {c : Command} :
    (fitsField 0xFFFFFFFF x).bind f = some c ↔ ∃ b : Word, x = b.toNat ∧ f b.toNat = some c :=
  fitsField_bind_iff rfl

theorem setWidth_eq_shiftByte (shift : BitVec 4) : shift.setWidth 8 = shiftByte shift := by
  revert shift; decide

/-- A command built from fields is one that row `r` writes. -/
theorem writtenBy_cmdWord {r : OpcodeRow} {a : Byte} {d : Half} {aux : Word}
    (hz : reservedFieldsZero r.form a d = true) (haux : usedAux r.form aux = aux) :
    WrittenBy r ⟨cmdWord (cmdOp r.pattern) a d, aux⟩ :=
  ⟨cmdOp_cmdWord _ _ _, by rwa [cmdA_cmdWord, cmdD_cmdWord], haux⟩

/-- What a row accepts is a command it writes, with the operands in the fields of its form (R76, R77). -/
theorem writtenBy_of_assembleRow {r : OpcodeRow} {operands : List Int} {c : Command}
    (h : assembleRow r operands = some c) : WrittenBy r c ∧ operands = placedOperands r.form c := by
  unfold assembleRow at h
  dsimp only at h
  split at h
  case h_10 => exact absurd h (by simp)
  all_goals simp only [Option.bind_eq_bind, fitsByte_bind_iff, fitsHalf_bind_iff, fitsWord_bind_iff, fitsShift_bind_iff,
    fitsSigned_bind_iff, BitVec.ofNat_toNat, BitVec.setWidth_eq, setWidth_eq_shiftByte, Option.some.injEq] at h
  case' h_1 => subst h
  case' h_2 | h_4 | h_7 | h_9 => obtain ⟨x, rfl, rfl⟩ := h
  case' h_3 | h_8 => obtain ⟨x, rfl, y, rfl, rfl⟩ := h
  case' h_5 => obtain ⟨shift, rfl, cur, rfl, mask, rfl, new, rfl, rfl⟩ := h
  case' h_6 => obtain ⟨shift, rfl, word, rfl, mask, rfl, rfl⟩ := h
  all_goals
    rename_i hform
    exact ⟨writtenBy_cmdWord (by simp [hform, reservedFieldsZero]) (by simp [hform, usedAux]),
      by simp [hform, placedOperands]⟩

/-- A row accepts the operands in the fields of any command, and writes them where they were. -/
theorem assembleRow_placedOperands (r : OpcodeRow) (c : Command) :
    assembleRow r (placedOperands r.form c) =
      some ⟨cmdWord (cmdOp r.pattern) (placedA r.form (cmdA c.cmd)) (placedD r.form (cmdD c.cmd)),
        usedAux r.form c.aux⟩ := by
  obtain ⟨name, pattern, mask, form⟩ := r
  cases form
  all_goals simp only [assembleRow, placedOperands, Option.bind_eq_bind, fitsByte_bind_iff, fitsHalf_bind_iff,
    fitsWord_bind_iff, fitsShift_bind_iff, fitsSigned_bind_iff, BitVec.ofNat_toNat, BitVec.setWidth_eq,
    setWidth_eq_shiftByte]
  case bare => rfl
  case reg | value | centidegrees | timestamp => exact ⟨_, rfl, rfl⟩
  case regValue | curLast => exact ⟨_, rfl, _, rfl, rfl⟩
  case setBitfield =>
    exact ⟨_, rfl, _, rfl, _, rfl, _, rfl, congrArg (fun aux => some (Command.mk _ aux)) (auxPair_fields c.aux)⟩
  case getBitfield => exact ⟨_, rfl, _, rfl, _, rfl, rfl⟩

/-- The mnemonics of the rows are distinct, so a row is found by its own (R72). -/
theorem find_mnemonic {r : OpcodeRow} (hr : r ∈ opcodeMap) :
    opcodeMap.find? (fun q => q.mnemonic == r.mnemonic) = some r := by
  revert r
  decide

theorem assemble_of_row {r : OpcodeRow} (hr : r ∈ opcodeMap) (operands : List Int) :
    assemble r.mnemonic operands = assembleRow r operands := by
  simp only [assemble, find_mnemonic hr]

/-- What the assembler accepts, some row of the map with that mnemonic accepts (R76). -/
theorem row_of_assemble {name : String} {operands : List Int} {c : Command} (h : assemble name operands = some c) :
    ∃ r ∈ opcodeMap, r.mnemonic = name ∧ assembleRow r operands = some c := by
  unfold assemble at h
  split at h
  next r hfound =>
    have hname := List.find?_some hfound
    exact ⟨r, List.mem_of_find?_eq_some hfound, beq_iff_eq.1 hname, h⟩
  next => exact absurd h (by simp)

theorem wf_addressable (i : Instr) : i.wf .addressable = true := by
  cases i <;> rfl

/-- Settles O9: an accepted line is a command its row writes, which decodes to the instruction of that row with the
operands the row places; an instruction's own numbers are those its row places. -/
theorem assembledLinesDecode : Obligations.AssembledLinesDecode := by
  refine ⟨fun name operands c h => ?accepted, fun i => ?own⟩
  case accepted =>
    obtain ⟨r, hr, rfl, hrow⟩ := row_of_assemble h
    obtain ⟨⟨hop, hz, haux⟩, rfl⟩ := writtenBy_of_assembleRow hrow
    obtain ⟨i, hdec, -, hname, hoperands, hencode⟩ := decode_of_reservedFieldsZero (variant := .addressable) hr hop hz
    rw [haux] at hencode
    exact ⟨i, hencode.symm, hdec, hname, hoperands⟩
  case own =>
    have hdec := decode_encode .addressable (wf_addressable i)
    obtain ⟨r, hr, hop, hz⟩ := row_of_decode hdec
    obtain ⟨j, hj, -, hname, hoperands, hencode⟩ := decode_placed hr hop
    rw [hdec, hz, whenReservedZero_true, Decoded.instr.injEq] at hj
    subst hj
    rw [hname, hoperands, assemble_of_row hr, assembleRow_placedOperands, ← hencode]

/-! ## Words and codes written out -/

/-- Settles O1: each word evaluates through its opcode's arm of the decoder. -/
theorem opcodeWordsDecode : Obligations.OpcodeWordsDecode := by
  unfold Obligations.OpcodeWordsDecode
  decide

/-- Settles O8, by the coding's definition (R74). -/
theorem responseStatusCodes : Obligations.ResponseStatusCodes := ⟨rfl, rfl, rfl, rfl⟩

end Sys2Proof.Machine
end

section
/-! PROOFS of the statements about one step and about who writes a register (`10_state.md`, `60_exceptions.md`): what a
step does is said once for each of its three outcomes; the registers' writers are read off the ways a command ends. -/

namespace Sys2Proof.Machine

open Sys2Proof.Claims

/-! ## The step -/

theorem step_of_no_command {s : State} (hc : s.commands = []) : step s = .next s := by
  simp only [step, takeCommand, hc]

theorem step_of_instr {s : State} {c : Command} {rest : List Command} {i : Instr} (hc : s.commands = c :: rest)
    (hdec : decode s.params.variant c = .instr i) : step s = exec i { s with commands := rest } := by
  simp only [step, takeCommand, hc, hdec]

/-- Settles O7, by the step's three outcomes. -/
theorem stepRunsDecodedInstruction : Obligations.StepRunsDecodedInstruction :=
  ⟨fun _ => step_of_no_command, fun _ _ _ _ => step_of_instr, fun _ _ _ _ => step_of_illegal⟩

/-! ## What a command leaves of the registers -/

theorem Traffic.offset {s t : State} (h : Traffic s t) : t.offset = s.offset := by
  obtain ⟨n, code, calls, x, -, -⟩ := h
  rfl

theorem Traffic.addr {s t : State} (h : Traffic s t) : t.addr = s.addr := by
  obtain ⟨n, code, calls, x, -, -⟩ := h
  rfl

theorem Traffic.hist {s t : State} (h : Traffic s t) : t.hist = s.hist := by
  obtain ⟨n, code, calls, x, -, -⟩ := h
  rfl

theorem Traffic.commands {s t : State} (h : Traffic s t) : t.commands = s.commands := by
  obtain ⟨n, code, calls, x, -, -⟩ := h
  rfl

/-- Only the offset setters write `OFFSET` (R22). -/
theorem Ends.offset_of_not_setsOffset {s t : State} {i : Instr} (h : Ends s i t) (hi : ¬ setsOffset i) :
    t.offset = s.offset := by
  cases h with
  | invalid | illegal | address => rfl
  | ok _ _ hu | busError _ hu | sampled _ _ _ hu | sampleFailed _ _ hu => exact hu.offset
  | offset _ hset => exact absurd hset hi

/-- Only SET_ADDRESS on the addressable variant writes `ADDR` (R21). -/
theorem Ends.addr_eq_or {s t : State} {i : Instr} (h : Ends s i t) :
    t.addr = s.addr ∨ (∃ v, i = .setAddress v) ∧ s.params.variant = .addressable := by
  cases h with
  | invalid | illegal | offset => exact .inl rfl
  | ok _ _ hu | busError _ hu | sampled _ _ _ hu | sampleFailed _ _ hu => exact .inl hu.addr
  | address v hv => exact .inr ⟨⟨v, rfl⟩, hv⟩

/-- Only SPEED_SAMPLE writes `HIST`, and it leaves a sample there (R23). -/
theorem Ends.hist_eq_or {s t : State} {i : Instr} (h : Ends s i t) :
    t.hist = s.hist ∨ (∃ now, i = .speedSample now) ∧ t.hist ≠ none := by
  cases h with
  | invalid | illegal | offset | address => exact .inl rfl
  | ok _ _ hu | busError _ hu => exact .inl hu.hist
  | sampled now | sampleFailed now => exact .inr ⟨⟨now, rfl⟩, Option.some_ne_none _⟩

theorem Ends.params {s t : State} {i : Instr} (h : Ends s i t) : t.params = s.params := by
  cases h with
  | invalid | illegal | offset | address => rfl
  | ok _ _ hu | busError _ hu | sampled _ _ _ hu | sampleFailed _ _ hu => exact hu.params

theorem Ends.commands {s t : State} {i : Instr} (h : Ends s i t) : t.commands = s.commands := by
  cases h with
  | invalid | illegal | offset | address => rfl
  | ok _ _ hu | busError _ hu | sampled _ _ _ hu | sampleFailed _ _ hu => exact hu.commands

/-- Settles O48: each register's writer among the ways a command ends; a step runs one command or none. -/
theorem registersHaveTheirWriters : Obligations.RegistersHaveTheirWriters := by
  refine ⟨fun i s t h => ?command, fun s t h => ?step⟩
  case command =>
    have he := exec_ends h
    refine ⟨fun hne => ?_, he.addr_eq_or.resolve_left, fun hne => (he.hist_eq_or.resolve_left hne).1⟩
    by_contra hi
    exact hne (he.offset_of_not_setsOffset hi)
  case step =>
    obtain ⟨-, rfl⟩ | ⟨c, rest, -, ⟨i, -, he⟩ | ⟨why, -, rfl⟩⟩ := step_cases h
    · exact ⟨rfl, id⟩
    · have he := exec_ends he
      refine ⟨he.params, fun hs => ?_⟩
      obtain hsame | ⟨-, hsome⟩ := he.hist_eq_or
      · exact hsame.trans_ne hs
      · exact hsome
    · exact ⟨rfl, id⟩

/-! ## Every command is answered -/

/-- The state holds a response whose words are 0 if the command was refused (R35). -/
def Answered (t : State) : Prop :=
  ∃ r : Response, t.response = some r ∧
    (r.status = .invalidArgument ∨ r.status = .illegalCommand → r.result = 0#32 ∧ r.result2 = 0#32)

theorem Ends.answered {s t : State} {i : Instr} (h : Ends s i t) : Answered t := by
  cases h with
  | invalid | illegal => exact ⟨_, rfl, fun _ => ⟨rfl, rfl⟩⟩
  | ok | busError | offset | address | sampled | sampleFailed =>
    exact ⟨_, rfl, fun hrefused => absurd hrefused (by simp)⟩

/-- Settles O50: the step runs the command to one of its ends, or answers ILLEGAL_COMMAND. -/
theorem everyCommandIsAnswered : Obligations.EveryCommandIsAnswered := by
  intro s c rest hc
  cases hdec : decode s.params.variant c with
  | instr i =>
    obtain ⟨t, ht, he⟩ := exec_next_ends i { s with commands := rest }
    obtain ⟨r, hr, hwords⟩ := he.answered
    exact ⟨t, r, (step_of_instr hc hdec).trans ht, he.commands, hr, hwords⟩
  | illegal why => exact ⟨_, _, step_of_illegal hc hdec, rfl, rfl, fun _ => ⟨rfl, rfl⟩⟩

end Sys2Proof.Machine
end

section
/-! PROOFS of the statements about the bus traffic of a command (`20_memory.md`, `60_exceptions.md`): each access issues
its calls in order up to the first failure (`Accesses`), so a command made of accesses does so too (`Issues`). -/

namespace Sys2Proof.Machine

open Sys2Proof.Claims

/-! ## Calls -/

/-- The Transport calls of `n` transactions issued from `s`, the first of them the transaction `k` ahead: in order, with
the statuses the transport answers, and all of them allowed (R41, R50, R56). -/
structure CallsOf (s : State) (k n : Nat) (calls : List Event) : Prop where
  statuses_eq : statuses calls = (List.range' k n).map (answerStatus s)
  allowed : ∀ e ∈ calls, callAllowed s.addr e = true

theorem callsOf_nil (s : State) (k : Nat) : CallsOf s k 0 [] := ⟨rfl, by simp⟩

theorem CallsOf.append {s : State} {k m n : Nat} {xs ys : List Event} (hx : CallsOf s k m xs)
    (hy : CallsOf s (k + m) n ys) : CallsOf s k (m + n) (xs ++ ys) := by
  refine ⟨?_, fun e he => (List.mem_append.1 he).elim (hx.allowed e) (hy.allowed e)⟩
  rw [← List.range'_append_1, List.map_append, ← hx.statuses_eq, ← hy.statuses_eq, statuses, List.filterMap_append]
  rfl

theorem callsOf_sel {s : State} {k : Nat} {reg : Byte} (hreg : reg ≠ 0xFF#8) :
    CallsOf s k 1 [.sel s.addr reg (answerStatus s k)] :=
  ⟨rfl, by simpa [callAllowed] using hreg⟩

theorem callsOf_req (s : State) (k : Nat) : CallsOf s k 1 [.req s.addr 1 (answerStatus s k)] :=
  ⟨rfl, by simp [callAllowed]⟩

theorem callsOf_rd (s : State) (k : Nat) (b : Byte) : CallsOf s k 0 [.rd b] :=
  ⟨rfl, by simp [callAllowed]⟩

theorem callsOf_wr {s : State} {k : Nat} {reg b : Byte} (hreg : reg ≠ 0xFF#8) :
    CallsOf s k 1 [.wr s.addr reg b (answerStatus s k)] :=
  ⟨rfl, by simpa [callAllowed] using hreg⟩

theorem callsOf_prb (s : State) (k : Nat) : CallsOf s k 1 [.prb s.addr (answerStatus s k)] :=
  ⟨rfl, by simp [callAllowed]⟩

theorem callsOf_byteReadCalls {s : State} {k : Nat} {reg : Byte} (hreg : reg ≠ 0xFF#8)
    (h0 : answerStatus s k = 0#8) (h1 : answerStatus s (k + 1) = 0#8) : CallsOf s k 2 (byteReadCalls s k reg) := by
  have h := ((callsOf_sel hreg).append (callsOf_req s (k + 1))).append (callsOf_rd s (k + 2) (answerByte s (k + 1) reg))
  rwa [h0, h1] at h

theorem callsOf_byteFailCalls {s : State} {k j : Nat} {reg : Byte} (hreg : reg ≠ 0xFF#8) (hj : j < 2)
    (hbefore : ∀ i, i < j → answerStatus s (k + i) = 0#8) : CallsOf s k (j + 1) (byteFailCalls s k reg j) := by
  match j, hj with
  | 0, _ => exact callsOf_sel hreg
  | 1, _ =>
    have h := (callsOf_sel (k := k) hreg).append (callsOf_req s (k + 1))
    have hsel : answerStatus s k = 0#8 := hbefore 0 Nat.one_pos
    rwa [hsel] at h

/-- A pair below 0xFE names no register 0xFF (R56). -/
theorem reg_ne_burn {reg : Byte} (h : reg.toNat < 0xFE) : reg ≠ 0xFF#8 ∧ reg + 1#8 ≠ 0xFF#8 := by
  constructor <;> bv_omega

theorem callsOf_pairReadCalls {s : State} {reg : Byte} (hreg : reg.toNat < 0xFE) (hs : Succeed s 4) :
    CallsOf s 0 4 (pairReadCalls s reg) :=
  (callsOf_byteReadCalls (reg_ne_burn hreg).1 (hs 0 (by decide)) (hs 1 (by decide))).append
    (callsOf_byteReadCalls (reg_ne_burn hreg).2 (hs 2 (by decide)) (hs 3 (by decide)))

theorem callsOf_pairFailCalls {s : State} {reg : Byte} {k : Nat} (hreg : reg.toNat < 0xFE) (hk : k < 4)
    (hs : Succeed s k) : CallsOf s 0 (k + 1) (pairFailCalls s reg k) := by
  obtain ⟨hlow, hhigh⟩ := reg_ne_burn hreg
  rw [pairFailCalls]
  split
  next h2 => exact callsOf_byteFailCalls hlow h2 fun i hi => by simpa using hs i hi
  next h2 =>
    have hfirst := callsOf_byteReadCalls hlow (hs 0 (by omega)) (hs 1 (by omega))
    have hsecond := callsOf_byteFailCalls (s := s) (k := 2) (j := k - 2) hhigh (by omega) fun i hi =>
      hs (2 + i) (by omega)
    rw [show k + 1 = 2 + (k - 2 + 1) by omega]
    exact hfirst.append hsecond

/-! ## Accesses -/

/-- The access issued at most four transactions, all of them successful if it completed and all but the last if it
failed (D6), with no calls but theirs. -/
inductive Accesses {α : Type} (s : State) : BusResult α → Prop
  | done (v : α) {n : Nat} (code : Byte) {calls : List Event} (x : Sensor) (hn : n ≤ 4) (hs : Succeed s n)
      (hc : CallsOf s 0 n calls) : Accesses s (.done v { afterCalls s n code calls with sensor := x })
  | failed {k : Nat} (code : Byte) {calls : List Event} (x : Sensor) (hk : k < 4) (hf : FailsAt s k)
      (hc : CallsOf s 0 (k + 1) calls) : Accesses s (.failed { afterCalls s (k + 1) code calls with sensor := x })

theorem memRead_accesses {reg : Byte} (s : State) (hreg : reg ≠ 0xFF#8) : Accesses s (memRead reg s) := by
  obtain ⟨hs, h⟩ | ⟨k, hk, hf, h⟩ := memRead_cases reg s <;> rw [h]
  · exact .done _ _ s.sensor (by decide) hs
      (callsOf_byteReadCalls hreg (hs 0 (by decide)) (hs 1 (by decide)))
  · exact .failed _ s.sensor (by omega) hf (callsOf_byteFailCalls hreg hk fun i hi => by simpa using hf.1 i hi)

theorem succeed_zero (s : State) : Succeed s 0 := fun j hj => absurd hj (Nat.not_lt_zero j)

theorem succeed_succ {s : State} {n : Nat} (hs : Succeed s n) (h : answerStatus s n = 0#8) : Succeed s (n + 1) :=
  fun j hj => (Nat.lt_succ_iff_lt_or_eq.1 hj).elim (hs j) (· ▸ h)

/-- A byte write after `n` successful transactions, whose calls stand before its own. -/
theorem memWrite_afterCalls_accesses {s : State} {n : Nat} {reg b code : Byte} {calls : List Event} (hn : n < 4)
    (hreg : reg ≠ 0xFF#8) (hs : Succeed s n) (hc : CallsOf s 0 n calls) :
    Accesses s (memWrite reg b (afterCalls s n code calls)) := by
  have hwr := hc.append (by simpa using callsOf_wr (s := s) (k := n) (b := b) hreg)
  by_cases h : answerStatus s n = 0#8
  · rw [memWrite_afterCalls_done _ _ _ _ h]
    exact .done _ _ _ hn (succeed_succ hs h) (h ▸ hwr)
  · rw [memWrite_afterCalls_failed _ _ _ _ h]
    exact .failed _ _ hn ⟨hs, h⟩ hwr

theorem memWrite_accesses {reg : Byte} (b : Byte) (s : State) (hreg : reg ≠ 0xFF#8) :
    Accesses s (memWrite reg b s) := by
  simpa [afterCalls] using
    memWrite_afterCalls_accesses (code := s.lastErr) (by decide) hreg (succeed_zero s) (callsOf_nil s 0)

theorem readPair_accesses {reg : Byte} (w : PairWidth) (s : State) (hreg : reg.toNat < 0xFE) :
    Accesses s (readPair w reg s) := by
  obtain ⟨hs, h⟩ | ⟨k, hk, hf, h⟩ := readPair_cases w reg s <;> rw [h]
  · exact .done _ _ s.sensor (by decide) hs (callsOf_pairReadCalls hreg hs)
  · exact .failed _ s.sensor hk hf (callsOf_pairFailCalls hreg hk hf.1)

theorem writePair_accesses {reg : Byte} (w : PairWidth) (v : Half) (s : State) (hreg : reg.toNat < 0xFE) :
    Accesses s (writePair w reg v s) := by
  obtain ⟨hlow, hhigh⟩ := reg_ne_burn hreg
  have hfirst := callsOf_wr (s := s) (k := 0) (b := pairHighByte w v) hlow
  have hboth := hfirst.append (callsOf_wr (b := pairLowByte v) hhigh)
  obtain ⟨hs, h⟩ | ⟨hf, h⟩ | ⟨hf, h⟩ := writePair_cases w reg v s <;> rw [h]
  · rw [hs 0 (by decide), hs 1 (by decide)] at hboth
    exact .done _ _ _ (by decide) hs hboth
  · exact .failed _ _ (by decide) hf hfirst
  · rw [hf.1 0 (by decide)] at hboth
    exact .failed _ _ (by decide) hf hboth

/-! ## Commands -/

/-- The command ended with BUS_ERROR. -/
def AnswersBusError (t : State) : Prop := ∃ r r2, t.response = some ⟨.busError, r, r2⟩

/-- `t` has the calls of `n` transactions from `s` in its history, and their scripted answers are used up. -/
structure Issued (s t : State) (n : Nat) : Prop where
  calls : ∃ calls, t.history = s.history ++ calls ∧ CallsOf s 0 n calls
  answers : t.answers = s.answers.drop n

/-- How a command other than PROBE can end: after at most four successful transactions, not with BUS_ERROR; or at the
first failing one of them, with BUS_ERROR (R222). -/
inductive Issues (s t : State) : Prop
  | completed (n : Nat) (hn : n ≤ 4) (hs : Succeed s n) (hi : Issued s t n) (ht : ¬ AnswersBusError t)
  | stopped (k : Nat) (hk : k < 4) (hf : FailsAt s k) (hi : Issued s t (k + 1)) (ht : AnswersBusError t)

theorem issued_zero {s t : State} (hh : t.history = s.history) (ha : t.answers = s.answers) : Issued s t 0 :=
  ⟨⟨[], by simpa using hh, callsOf_nil s 0⟩, by simpa using ha⟩

theorem not_answersBusError_respond {status : Status} {r r2 : Word} {s : State} (h : status ≠ .busError) :
    ¬ AnswersBusError (respond status r r2 s) := by
  rintro ⟨q, q2, hq⟩
  rw [respond_response, Option.some.injEq, Response.mk.injEq] at hq
  exact h hq.1

/-- A command that uses no bus. -/
theorem issues_respond {s u : State} {status : Status} {r r2 : Word} (h : status ≠ .busError)
    (hh : u.history = s.history) (ha : u.answers = s.answers) : Issues s (respond status r r2 u) :=
  .completed 0 (Nat.zero_le 4) (succeed_zero s) (issued_zero hh ha) (not_answersBusError_respond h)

theorem issues_respondOk {s u : State} (r : Word) (hh : u.history = s.history) (ha : u.answers = s.answers) :
    Issues s (respondOk r u) :=
  issues_respond (by decide) hh ha

theorem issues_raiseInvalidArgument (s : State) : Issues s (raiseInvalidArgument s) :=
  issues_respond (by decide) rfl rfl

/-- A check that refuses, then the rest of the command. -/
theorem issues_of_check {s t : State} {refuse : Bool} (h : refuse = false → Issues s t) :
    Issues s (if refuse then raiseInvalidArgument s else t) := by
  cases refuse with
  | true => exact issues_raiseInvalidArgument s
  | false => exact h rfl

/-- A failed access, then BUS_ERROR (R46). -/
theorem issues_raiseBusError {α : Type} {s u : State} (h : Accesses s (.failed u : BusResult α)) :
    Issues s (raiseBusError u) := by
  cases h with
  | failed code x hk hf hc => exact .stopped _ hk hf ⟨⟨_, rfl, hc⟩, rfl⟩ ⟨_, _, rfl⟩

/-- One access, then the answer OK or BUS_ERROR (R46). -/
theorem issues_access {α : Type} {s : State} {r : BusResult α} {result : α → State → Word} (h : Accesses s r) :
    Issues s (afterBus r fun v u => respondOk (result v u) u) := by
  cases r with
  | done v u =>
    cases h with
    | done _ code x hn hs hc =>
      exact .completed _ hn hs ⟨⟨_, rfl, hc⟩, rfl⟩ (not_answersBusError_respond (by decide))
  | failed u => exact issues_raiseBusError h

theorem fieldReg_ne_burn (l : ConfLayout) (f : Field) : fieldReg l f ≠ 0xFF#8 := by
  rw [fieldReg]
  cases (fieldPos l f).byte <;> decide

/-- A field setter: a byte read, then a byte write after its two transactions (R123). -/
theorem issues_setField (f : Field) (v : Half) (s : State) : Issues s (setField f v s) := by
  have hreg := fieldReg_ne_burn s.params.layout f
  by_cases hv : v.toNat < fieldValidCount f
  · rw [setField_accepted s hv]
    obtain ⟨hs, h⟩ | ⟨k, hk, hf, h⟩ := memRead_cases (fieldReg s.params.layout f) s
    · have hc := callsOf_byteReadCalls hreg (hs 0 (by decide)) (hs 1 (by decide))
      rw [h, afterBus_done]
      exact issues_access (memWrite_afterCalls_accesses (by decide) hreg hs hc)
    · have hread := memRead_accesses s hreg
      rw [h] at hread ⊢
      exact issues_raiseBusError hread
  · rw [setField_refused s (Nat.le_of_not_lt hv)]
    exact issues_raiseInvalidArgument s

theorem issues_readFixedPair {reg : Byte} (s : State) (hreg : reg.toNat < 0xFE) : Issues s (readFixedPair reg s) :=
  issues_access (readPair_accesses .w12 s hreg)

theorem issues_writeFixedPair {reg : Byte} (v : Half) (s : State) (hreg : reg.toNat < 0xFE) :
    Issues s (writeFixedPair reg v s) :=
  issues_of_check fun _ => issues_access (writePair_accesses .w12 v s hreg)

theorem reg_lt_of_touchesBurn16 {reg : Byte} (h : touchesBurn16 reg = false) : reg.toNat < 0xFE := by
  simpa [touchesBurn16] using h

theorem issues_readPairCommand (w : PairWidth) (reg : Byte) (s : State) : Issues s (readPairCommand w reg s) :=
  issues_of_check fun h => issues_access (readPair_accesses w s (reg_lt_of_touchesBurn16 h))

theorem issues_writePairCommand (w : PairWidth) (tooWide : Bool) (reg : Byte) (v : Half) (s : State) :
    Issues s (writePairCommand w tooWide reg v s) :=
  issues_of_check fun h =>
    issues_access (writePair_accesses w v s (reg_lt_of_touchesBurn16 (Bool.or_eq_false_iff.1 h).1))

theorem issues_getField (f : Field) (s : State) : Issues s (getField f s) :=
  issues_access (memRead_accesses s (fieldReg_ne_burn s.params.layout f))

theorem reg_ne_of_touchesBurn8 {reg : Byte} (h : touchesBurn8 reg = false) : reg ≠ 0xFF#8 := by
  simpa [touchesBurn8] using h

theorem issues_speedSample (now : Word) (s : State) : ∃ t, execSpeedSample now s = .next t ∧ Issues s t := by
  refine ⟨_, rfl, issues_of_check fun _ => ?_⟩
  have hread := readPair_accesses .w12 s (reg := 0x0C#8) (by decide)
  cases h : readPair .w12 0x0C#8 s with
  | done r u =>
    rw [h] at hread
    cases hread with
    | done _ code x hn hs hc =>
      exact .completed _ hn hs ⟨⟨_, rfl, hc⟩, rfl⟩ (not_answersBusError_respond (by decide))
  | failed u =>
    rw [h] at hread
    cases hread with
    | failed code x hk hf hc => exact .stopped _ hk hf ⟨⟨_, rfl, hc⟩, rfl⟩ ⟨_, _, rfl⟩

theorem issues_setAddress (v : Half) (s : State) : ∃ t, execSetAddress v s = .next t ∧ Issues s t := by
  refine ⟨_, rfl, ?_⟩
  split
  · exact issues_respond (by decide) rfl rfl
  · exact issues_of_check fun _ => issues_respondOk _ rfl rfl

/-- Every command but PROBE ends after its transactions or at the first failing one, none of which names BURN. -/
theorem exec_next_issues {i : Instr} (hi : i ≠ .probe) (s : State) : ∃ t, exec i s = .next t ∧ Issues s t := by
  cases i with
  | probe => exact absurd rfl hi
  | read8 reg =>
    exact ⟨_, rfl, issues_of_check fun h => issues_access (memRead_accesses s (reg_ne_of_touchesBurn8 h))⟩
  | write8 reg v =>
    exact ⟨_, rfl, issues_of_check fun h =>
      issues_access (memWrite_accesses _ s (reg_ne_of_touchesBurn8 (Bool.or_eq_false_iff.1 h).1))⟩
  | read12 | read14 => exact ⟨_, rfl, issues_readPairCommand ..⟩
  | write12 | write14 => exact ⟨_, rfl, issues_writePairCommand ..⟩
  | setPm | setHyst | setOuts | setPwmf | setSf | setFth | setWd => exact ⟨_, rfl, issues_setField ..⟩
  | getPm | getHyst | getOuts | getPwmf | getSf | getFth | getWd => exact ⟨_, rfl, issues_getField ..⟩
  | getConf => exact ⟨_, rfl, issues_access (readPair_accesses .w14 s (by decide))⟩
  | setConf v => exact ⟨_, rfl, issues_of_check fun _ => issues_access (writePair_accesses .w14 v s (by decide))⟩
  | getZpos | getMpos | getMang | rawAngle | angle | readMagnitude =>
    exact ⟨_, rfl, issues_readFixedPair s (by decide)⟩
  | setZpos v | setMpos v | setMang v => exact ⟨_, rfl, issues_writeFixedPair v s (by decide)⟩
  | effAngle => exact ⟨_, rfl, issues_access (readPair_accesses .w12 s (by decide))⟩
  | getZmco | readStatusFlags | readAgc => exact ⟨_, rfl, issues_access (memRead_accesses s (by decide))⟩
  | setOffsetRaw | setOffsetCdeg | toDeg | wrapDelta =>
    exact ⟨_, rfl, issues_of_check fun _ => issues_respondOk _ rfl rfl⟩
  | setbf | getbf | getOffsetRaw | getOffsetDeg | getAddress | getLastError =>
    exact ⟨_, rfl, issues_respondOk _ rfl rfl⟩
  | speedSample now => exact issues_speedSample now s
  | setAddress v => exact issues_setAddress v s

theorem exec_issues {i : Instr} {s t : State} (hi : i ≠ .probe) (h : exec i s = .next t) : Issues s t := by
  obtain ⟨u, hu, hissues⟩ := exec_next_issues hi s
  obtain rfl : u = t := by simpa [hu] using h
  exact hissues

/-- PROBE issues its one transaction and answers OK whatever it returns (R49, R210). -/
theorem exec_probe_issued {s t : State} (h : exec .probe s = .next t) : Issued s t 1 ∧ ¬ AnswersBusError t := by
  rw [exec_probe, Host.Outcome.next.injEq] at h
  subst h
  exact ⟨⟨⟨_, rfl, callsOf_prb s 0⟩, rfl⟩, not_answersBusError_respond (by decide)⟩

/-- Settles O46: a command but PROBE by its two ends, PROBE by its one transaction. -/
theorem commandStopsAtFirstFailure : Obligations.CommandStopsAtFirstFailure := by
  intro i s t h
  by_cases hi : i = .probe
  · subst hi
    obtain ⟨⟨⟨calls, hcalls, hc⟩, hanswers⟩, ht⟩ := exec_probe_issued h
    exact ⟨1, calls, by decide, hcalls, hc.statuses_eq, hanswers, fun j hj => by omega,
      fun hbus => absurd hbus ht, fun hbus => absurd rfl hbus.1⟩
  · cases exec_issues hi h with
    | completed n hn hs hissued ht =>
      obtain ⟨⟨calls, hcalls, hc⟩, hanswers⟩ := hissued
      refine ⟨n, calls, hn, hcalls, List.range_eq_range' ▸ hc.statuses_eq, hanswers, fun j hj => hs j (by omega),
        fun hbus => absurd hbus ht, fun ⟨_, hpos, hfail⟩ => absurd (hs (n - 1) (by omega)) hfail⟩
    | stopped k hk hf hissued ht =>
      obtain ⟨⟨calls, hcalls, hc⟩, hanswers⟩ := hissued
      exact ⟨k + 1, calls, hk, hcalls, List.range_eq_range' ▸ hc.statuses_eq, hanswers,
        fun j hj => hf.1 j (by omega), fun _ => ⟨hi, k.succ_pos, hf.2⟩, fun _ => ht⟩

/-- The calls a command appends are allowed at the address it started from. -/
theorem exec_calls_allowed {i : Instr} {s t : State} (h : exec i s = .next t) :
    ∃ calls, t.history = s.history ++ calls ∧ ∀ e ∈ calls, callAllowed s.addr e = true := by
  obtain ⟨n, ⟨calls, hcalls, hc⟩, -⟩ : ∃ n, Issued s t n := by
    by_cases hi : i = .probe
    · exact ⟨1, (exec_probe_issued (hi ▸ h)).1⟩
    · cases exec_issues hi h with
      | completed n _ _ hissued => exact ⟨n, hissued⟩
      | stopped k _ _ hissued => exact ⟨k + 1, hissued⟩
  exact ⟨calls, hcalls, hc.allowed⟩

/-- Settles O45: only a step that runs a command appends calls, and those are allowed. -/
theorem busTrafficStaysAllowed : Obligations.BusTrafficStaysAllowed := by
  intro s t h
  obtain ⟨-, rfl⟩ | ⟨c, rest, -, ⟨i, -, he⟩ | ⟨why, -, rfl⟩⟩ := step_cases h
  · exact ⟨[], by simp, by simp⟩
  · have hcalls := exec_calls_allowed he
    exact hcalls
  · exact ⟨[], by simp, by simp⟩

end Sys2Proof.Machine
end

section
/-! PROOFS of the statement about the readers of `OFFSET` (`10_state.md` R22): every command but the three readers and
the two setters runs alike from two states that differ in `OFFSET` alone, since it is made of parts that do. -/

namespace Sys2Proof.Machine

open Sys2Proof.Claims

/-! ## Commands that do not touch `OFFSET` -/

/-- What follows an access commutes with a change of `OFFSET` if the access and the rest do. -/
theorem afterBus_setOffset {α : Type} {r r' : BusResult α} {next next' : α → State → State} {o : Angle}
    (hr : r' = r.setOffset o) (hnext : ∀ v t, next' v (t.setOffset o) = (next v t).setOffset o) :
    afterBus r' next' = (afterBus r next).setOffset o := by
  subst hr
  cases r with
  | done v t => exact hnext v t
  | failed t => rfl

/-- An access, then an answer that does not read `OFFSET`. -/
theorem access_setOffset {α : Type} {r r' : BusResult α} {result : α → State → Word} {o : Angle}
    (hr : r' = r.setOffset o) (hresult : ∀ v t, result v (t.setOffset o) = result v t) :
    afterBus r' (fun v t => respondOk (result v t) t) =
      (afterBus r fun v t => respondOk (result v t) t).setOffset o :=
  afterBus_setOffset hr fun v t => by rw [hresult]; rfl

theorem check_setOffset {refuse : Bool} {s t t' : State} {o : Angle} (ht : t' = t.setOffset o) :
    (if refuse then raiseInvalidArgument (s.setOffset o) else t') =
      (if refuse then raiseInvalidArgument s else t).setOffset o := by
  subst ht
  cases refuse <;> rfl

theorem readFixedPair_setOffset (reg : Byte) (s : State) (o : Angle) :
    readFixedPair reg (s.setOffset o) = (readFixedPair reg s).setOffset o :=
  access_setOffset (readPair_setOffset .w12 reg s o) fun _ _ => rfl

theorem writeFixedPair_setOffset (reg : Byte) (v : Half) (s : State) (o : Angle) :
    writeFixedPair reg v (s.setOffset o) = (writeFixedPair reg v s).setOffset o :=
  check_setOffset (access_setOffset (writePair_setOffset .w12 reg v s o) fun _ _ => rfl)

theorem readPairCommand_setOffset (w : PairWidth) (reg : Byte) (s : State) (o : Angle) :
    readPairCommand w reg (s.setOffset o) = (readPairCommand w reg s).setOffset o :=
  check_setOffset (access_setOffset (readPair_setOffset w reg s o) fun _ _ => rfl)

theorem writePairCommand_setOffset (w : PairWidth) (tooWide : Bool) (reg : Byte) (v : Half) (s : State) (o : Angle) :
    writePairCommand w tooWide reg v (s.setOffset o) = (writePairCommand w tooWide reg v s).setOffset o :=
  check_setOffset (access_setOffset (writePair_setOffset w reg v s o) fun _ _ => rfl)

theorem getField_setOffset (f : Field) (s : State) (o : Angle) :
    getField f (s.setOffset o) = (getField f s).setOffset o :=
  access_setOffset (memRead_setOffset _ s o) fun _ _ => rfl

theorem setField_setOffset (f : Field) (v : Half) (s : State) (o : Angle) :
    setField f v (s.setOffset o) = (setField f v s).setOffset o := by
  rw [setField, setField]
  split
  · exact afterBus_setOffset (memRead_setOffset _ s o) fun b t =>
      access_setOffset (memWrite_setOffset _ _ t o) fun _ _ => rfl
  · rfl

theorem failSample_setOffset (now : Word) (s : State) (o : Angle) :
    failSample now (s.setOffset o) = (failSample now s).setOffset o := rfl

theorem finishSample_setOffset (r : Angle) (now : Word) (s : State) (o : Angle) :
    finishSample r now (s.setOffset o) = (finishSample r now s).setOffset o := rfl

theorem speedSample_setOffset (now : Word) (s : State) (o : Angle) :
    ∃ t, execSpeedSample now s = .next t ∧ execSpeedSample now (s.setOffset o) = .next (t.setOffset o) := by
  refine ⟨_, rfl, congrArg Host.Outcome.next (check_setOffset ?_)⟩
  rw [readPair_setOffset]
  cases readPair .w12 0x0C#8 s with
  | done r t => exact finishSample_setOffset (toAngle r) now t o
  | failed t => exact failSample_setOffset now t o

theorem exec_setAddress_base (v : Half) {s : State} (hv : s.params.variant = .base) :
    exec (.setAddress v) s = .next (raiseIllegalCommand s) := by
  simp only [exec, execSetAddress, hv]

theorem setAddress_setOffset (v : Half) (s : State) (o : Angle) :
    ∃ t, exec (.setAddress v) s = .next t ∧ exec (.setAddress v) (s.setOffset o) = .next (t.setOffset o) := by
  cases hv : s.params.variant with
  | base => exact ⟨_, exec_setAddress_base v hv, exec_setAddress_base v (s := s.setOffset o) hv⟩
  | addressable =>
    have ht := exec_setAddress_addressable v (s := s.setOffset o) hv
    exact ⟨_, exec_setAddress_addressable v hv, ht.trans (congrArg _ (check_setOffset (by rfl)))⟩

/-- A command that neither reads nor sets `OFFSET` runs alike whatever it holds. -/
theorem exec_setOffset {i : Instr} (hr : ¬ readsOffset i) (hw : ¬ setsOffset i) (s : State) (o : Angle) :
    ∃ t, exec i s = .next t ∧ exec i (s.setOffset o) = .next (t.setOffset o) := by
  cases i with
  | effAngle => exact absurd (.inl rfl) hr
  | getOffsetRaw => exact absurd (.inr (.inl rfl)) hr
  | getOffsetDeg => exact absurd (.inr (.inr rfl)) hr
  | setOffsetRaw v => exact absurd (.inl ⟨v, rfl⟩) hw
  | setOffsetCdeg c => exact absurd (.inr ⟨c, rfl⟩) hw
  | read8 reg =>
    exact ⟨_, rfl, congrArg _ (check_setOffset (access_setOffset (memRead_setOffset reg s o) fun _ _ => rfl))⟩
  | write8 reg v =>
    exact ⟨_, rfl, congrArg _ (check_setOffset (access_setOffset (memWrite_setOffset reg _ s o) fun _ _ => rfl))⟩
  | read12 | read14 => exact ⟨_, rfl, congrArg _ (readPairCommand_setOffset ..)⟩
  | write12 | write14 => exact ⟨_, rfl, congrArg _ (writePairCommand_setOffset ..)⟩
  | setPm | setHyst | setOuts | setPwmf | setSf | setFth | setWd =>
    exact ⟨_, rfl, congrArg _ (setField_setOffset ..)⟩
  | getPm | getHyst | getOuts | getPwmf | getSf | getFth | getWd =>
    exact ⟨_, rfl, congrArg _ (getField_setOffset ..)⟩
  | getConf => exact ⟨_, rfl, congrArg _ (access_setOffset (readPair_setOffset .w14 0x07#8 s o) fun _ _ => rfl)⟩
  | setConf v =>
    exact ⟨_, rfl,
      congrArg _ (check_setOffset (access_setOffset (writePair_setOffset .w14 0x07#8 v s o) fun _ _ => rfl))⟩
  | getZpos | getMpos | getMang | rawAngle | angle | readMagnitude =>
    exact ⟨_, rfl, congrArg _ (readFixedPair_setOffset ..)⟩
  | setZpos | setMpos | setMang => exact ⟨_, rfl, congrArg _ (writeFixedPair_setOffset ..)⟩
  | getZmco | readStatusFlags | readAgc =>
    exact ⟨_, rfl, congrArg _ (access_setOffset (memRead_setOffset _ s o) fun _ _ => rfl)⟩
  | toDeg | wrapDelta => exact ⟨_, rfl, congrArg _ (check_setOffset (by rfl))⟩
  | setbf | getbf | probe | getAddress | getLastError => exact ⟨_, rfl, rfl⟩
  | speedSample now => exact speedSample_setOffset now s o
  | setAddress v => exact setAddress_setOffset v s o

/-! ## The offset setters -/

/-- An offset setter refuses, whatever `OFFSET` holds, or sets it to a value that does not depend on it (R170, R174). -/
theorem exec_setsOffset_cases {i : Instr} (hi : setsOffset i) (s : State) (o : Angle) :
    (exec i s = .next (raiseInvalidArgument s) ∧
      exec i (s.setOffset o) = .next (raiseInvalidArgument (s.setOffset o))) ∨
    ∃ x, exec i s = .next (respondOk 0#32 (s.setOffset x)) ∧
      exec i (s.setOffset o) = .next (respondOk 0#32 (s.setOffset x)) := by
  obtain ⟨v, rfl⟩ | ⟨c, rfl⟩ := hi
  · simp only [exec_setOffsetRaw]
    cases over12 v
    · exact .inr ⟨_, rfl, rfl⟩
    · exact .inl ⟨rfl, rfl⟩
  · simp only [exec_setOffsetCdeg]
    cases overOffsetBound s.params (signedCdeg c)
    · exact .inr ⟨_, rfl, rfl⟩
    · exact .inl ⟨rfl, rfl⟩

/-! ## Two states that differ in `OFFSET` alone -/

/-- From two states that differ in `OFFSET` alone, a command that is no reader leads to two such states; each keeps its
`OFFSET` unless the command is a setter that ends OK, which makes them equal. -/
theorem exec_offset_confined {i : Instr} {s t u : State} {o : Angle} (hr : ¬ readsOffset i) (ht : exec i s = .next t)
    (hu : exec i (s.setOffset o) = .next u) :
    u = t.setOffset u.offset ∧
    (setsOffset i → (∃ r r2, t.response = some ⟨.ok, r, r2⟩) → u.offset = t.offset) ∧
    (¬ (setsOffset i ∧ ∃ r r2, t.response = some ⟨.ok, r, r2⟩) → t.offset = s.offset ∧ u.offset = o) := by
  by_cases hw : setsOffset i
  · obtain ⟨ht', hu'⟩ | ⟨x, ht', hu'⟩ := exec_setsOffset_cases hw s o
    · obtain rfl := Host.Outcome.next.inj (ht.symm.trans ht')
      obtain rfl := Host.Outcome.next.inj (hu.symm.trans hu')
      exact ⟨rfl, fun _ ⟨r, r2, hok⟩ => absurd hok (by simp), fun _ => ⟨rfl, rfl⟩⟩
    · obtain rfl := Host.Outcome.next.inj (ht.symm.trans ht')
      obtain rfl := Host.Outcome.next.inj (hu.symm.trans hu')
      exact ⟨rfl, fun _ _ => rfl, fun h => absurd ⟨hw, _, _, rfl⟩ h⟩
  · obtain ⟨t', ht', hu'⟩ := exec_setOffset hr hw s o
    obtain rfl := Host.Outcome.next.inj (ht.symm.trans ht')
    obtain rfl := Host.Outcome.next.inj (hu.symm.trans hu')
    exact ⟨rfl, fun h => absurd h hw, fun _ => ⟨(exec_ends ht).offset_of_not_setsOffset hw, rfl⟩⟩

/-- Settles O49: the command's clause by whether it sets `OFFSET`; the step decodes without reading `OFFSET`. -/
theorem offsetHasOnlyItsReaders : Obligations.OffsetHasOnlyItsReaders := by
  refine ⟨fun i s t u o => exec_offset_confined, fun s t u o hr ht hu => ?step⟩
  cases hc : s.commands with
  | nil =>
    obtain rfl := Host.Outcome.next.inj ((step_of_no_command hc).symm.trans ht)
    obtain rfl := Host.Outcome.next.inj ((step_of_no_command (s := s.setOffset o) hc).symm.trans hu)
    rfl
  | cons c rest =>
    cases hdec : decode s.params.variant c with
    | instr i =>
      exact (exec_offset_confined (hr c rest i hc hdec) ((step_of_instr hc hdec).symm.trans ht)
        ((step_of_instr (s := s.setOffset o) hc hdec).symm.trans hu)).1
    | illegal why =>
      obtain rfl := Host.Outcome.next.inj ((step_of_illegal hc hdec).symm.trans ht)
      obtain rfl := Host.Outcome.next.inj ((step_of_illegal (s := s.setOffset o) hc hdec).symm.trans hu)
      rfl

end Sys2Proof.Machine
end

section
/-! PROOFS of the statements over the register-file oracle (`20_memory.md` R64) and of the laws of fields and layouts
(`40_codec_primitives.md` R103, `41_config_fields.md` R120): with nothing overridden every transaction succeeds, and the
bytes are the register file's. -/

namespace Sys2Proof.Machine

open Sys2Proof.Claims

/-! ## The register-file oracle with nothing overridden -/

/-- The sensor is the register-file oracle holding `dev`, in canonical form, and the test overrides no answer (R64). -/
structure HoldsFile (s : State) (dev : Memory) (lands : Bool) : Prop where
  sensor : s.sensor = .regFile dev lands
  answers : s.answers = []
  wf : dev.wf = true

theorem HoldsFile.succeed {s : State} {dev : Memory} {lands : Bool} (h : HoldsFile s dev lands) (n : Nat) :
    Succeed s n := by
  intro j _
  simp [answerStatus, h.sensor, h.answers]

theorem HoldsFile.answerByte {s : State} {dev : Memory} {lands : Bool} (h : HoldsFile s dev lands) (j : Nat)
    (reg : Byte) : answerByte s j reg = dev.read reg.toNat := by
  simp [Machine.answerByte, h.sensor, h.answers]

/-- After a successful write the register file holds the byte written. -/
theorem HoldsFile.okWith_afterWrite {s : State} {dev : Memory} {lands : Bool} (h : HoldsFile s dev lands) (r : Word)
    (n : Nat) (calls : List Event) (reg b : Byte) :
    HoldsFile (okWith r (afterWrite s n calls reg b 0#8)) (dev.write reg.toNat b) lands :=
  ⟨by simp [okWith, afterWrite, sensorWrite, h.sensor], by simp [okWith, afterWrite, h.answers],
    Memory.wf_write b h.wf reg.isLt⟩

theorem read_write_byte {dev : Memory} (hdev : dev.wf = true) (reg reg' b : Byte) :
    (dev.write reg.toNat b).read reg'.toNat = if reg = reg' then b else dev.read reg'.toNat := by
  rw [Memory.read_write _ _ _ hdev, if_congr BitVec.toNat_inj rfl rfl]

/-- A command that reads one byte answers from the register file. -/
theorem HoldsFile.exec_byteRead {s : State} {dev : Memory} {lands : Bool} {i : Instr} {reg : Byte} {result : Word}
    (h : HoldsFile s dev lands) (hi : ByteReadEffect i reg result s) :
    ∃ u, exec i s = .next u ∧ u.response = some ⟨.ok, result, 0#32⟩ :=
  ⟨_, hi.1 (h.succeed 2), rfl⟩

theorem HoldsFile.exec_read8 {s : State} {dev : Memory} {lands : Bool} {reg : Byte} (h : HoldsFile s dev lands)
    (hreg : reg ≠ 0xFF#8) :
    ∃ u, exec (.read8 reg) s = .next u ∧ u.response = some ⟨.ok, (dev.read reg.toNat).setWidth 32, 0#32⟩ := by
  have hread := (read8ReturnsByte reg s).2.2 hreg
  rw [h.answerByte] at hread
  exact h.exec_byteRead hread

theorem setWidth_ofNat_byte {v : Half} (hv : v.toNat ≤ 0xFF) :
    (BitVec.ofNat 8 v.toNat).setWidth 32 = v.setWidth 32 := by
  apply BitVec.eq_of_toNat_eq
  simp only [BitVec.toNat_setWidth, BitVec.toNat_ofNat]
  omega

/-- Settles O12: WRITE8 leaves the register file with the byte written, and READ8 reads it there. -/
theorem registerFileReadAfterWrite : Obligations.RegisterFileReadAfterWrite := by
  intro s dev lands reg reg' v hsensor hdev hanswers hreg hreg' hv
  have h : HoldsFile s dev lands := ⟨hsensor, hanswers, hdev⟩
  obtain ⟨hwrite, -⟩ := (write8SendsByte reg v s).2.2 hreg hv
  obtain ⟨u, hu, hresponse⟩ :=
    (h.okWith_afterWrite 0#32 1 [] reg (BitVec.ofNat 8 v.toNat)).exec_read8 hreg'
  refine ⟨_, u, hwrite (h.succeed 1), hu, ?_⟩
  rw [hresponse, read_write_byte hdev]
  by_cases heq : reg = reg'
  · rw [if_pos heq, if_pos heq.symm, setWidth_ofNat_byte hv]
  · rw [if_neg heq, if_neg (Ne.symm heq)]

/-! ## Fields of a layout (R120) -/

/-- A field of a well-formed layout lies wholly in its byte. -/
theorem inByte_of_wf {l : ConfLayout} (hl : l.wf = true) (f : Field) :
    fieldShift l f + fieldWidth f ≤ 8 := by
  have hf := List.all_eq_true.1 hl f (mem_allFields f)
  rw [Bool.and_eq_true] at hf
  exact of_decide_eq_true hf.1

/-- Two fields of a well-formed layout that share a byte share no bit of it. -/
theorem disjoint_of_wf {l : ConfLayout} (hl : l.wf = true) {f g : Field} (hfg : f ≠ g)
    (hreg : fieldReg l f = fieldReg l g) :
    fieldShift l f + fieldWidth f ≤ fieldShift l g ∨ fieldShift l g + fieldWidth g ≤ fieldShift l f := by
  have hbyte : (fieldPos l f).byte = (fieldPos l g).byte := by
    simp only [fieldReg] at hreg
    revert hreg
    cases (fieldPos l f).byte <;> cases (fieldPos l g).byte <;> decide
  have hf := List.all_eq_true.1 hl f (mem_allFields f)
  rw [Bool.and_eq_true, List.all_eq_true] at hf
  have hg := hf.2 g (mem_allFields g)
  simpa [FieldPos.disjoint, fieldShift, hfg, hbyte] using hg

/-- Inserting one field leaves every field that shares no bit with it (R123, R124). -/
theorem extractField_insertField {l : ConfLayout} {f g : Field} (b : Byte) (v : Half)
    (hg : fieldShift l g + fieldWidth g ≤ 8)
    (hfg : fieldShift l f + fieldWidth f ≤ fieldShift l g ∨ fieldShift l g + fieldWidth g ≤ fieldShift l f) :
    extractField l g (insertField l f b v) = extractField l g b := by
  refine BitVec.eq_of_getLsbD_eq fun k _ => ?_
  simp only [extractField, getLsbD_getBitfield, getLsbD_fieldMask]
  by_cases hk : k < fieldWidth g
  · have hbit : (insertField l f b v).getLsbD (k + fieldShift l g) = b.getLsbD (k + fieldShift l g) := by
      rw [getLsbD_insertField l f b v (by omega), if_neg (by omega)]
    simp only [BitVec.getLsbD_setWidth, hbit]
  · simp [hk]

/-- A write of one field to the register file leaves what every other field reads as. -/
theorem extractField_write {l : ConfLayout} (hl : l.wf = true) {f g : Field} (hfg : f ≠ g) {dev : Memory}
    (hdev : dev.wf = true) (v : Half) :
    extractField l g ((dev.write (fieldReg l f).toNat
      (insertField l f (dev.read (fieldReg l f).toNat) v)).read (fieldReg l g).toNat) =
      extractField l g (dev.read (fieldReg l g).toNat) := by
  rw [read_write_byte hdev]
  split
  next hreg =>
    rw [extractField_insertField _ _ (inByte_of_wf hl g) (disjoint_of_wf hl hfg hreg), hreg]
  next => rfl

theorem HoldsFile.exec_getterOf {s : State} {dev : Memory} {lands : Bool} (h : HoldsFile s dev lands) (g : Field) :
    ∃ u, exec (getterOf g) s = .next u ∧ u.response = some ⟨.ok, zext32 (extractField s.params.layout g
      (dev.read (fieldReg s.params.layout g).toNat)), 0#32⟩ := by
  have hread := byteReadEffect_of_exec (next := fun b _ => zext32 (extractField s.params.layout g b))
    (Machine.exec_getterOf g s)
  rw [h.answerByte] at hread
  exact h.exec_byteRead hread

/-- An accepted setter over the register file ends OK, the field inserted in its byte. -/
theorem HoldsFile.exec_setterOf {s : State} {dev : Memory} {lands : Bool} (h : HoldsFile s dev lands) {f : Field}
    {v : Half} (hv : v.toNat < fieldValidCount f) :
    exec (setterOf f v) s = .next (okWith 0#32 (afterWrite s 3 (byteReadCalls s 0 (fieldReg s.params.layout f))
      (fieldReg s.params.layout f)
      (insertField s.params.layout f (dev.read (fieldReg s.params.layout f).toNat) v) 0#8)) := by
  rw [Machine.exec_setterOf, setField_accepted s hv, memRead_of_succeed _ (h.succeed 2), afterBus_done, h.answerByte,
    memWrite_afterCalls_done _ _ _ _ (h.succeed 3 2 (by decide)), afterBus_done, respondOk_eq_okWith]

/-- A setter that ends OK had a legal value (R122). -/
theorem lt_validCount_of_ok {f : Field} {v : Half} {s t : State} {r : Word} (ht : exec (setterOf f v) s = .next t)
    (hok : t.response = some ⟨.ok, r, 0#32⟩) : v.toNat < fieldValidCount f := by
  by_contra hv
  rw [Machine.exec_setterOf, setField_refused s (Nat.le_of_not_lt hv), Host.Outcome.next.injEq] at ht
  subst ht
  exact absurd hok (by simp [invalidOf])

/-- Settles O21: the setter writes one byte, in which the other fields keep their bits. -/
theorem settersPreserveOtherFields : Obligations.SettersPreserveOtherFields := by
  intro f g v s t dev lands r hfg hl hsensor hdev hanswers ht hok
  have h : HoldsFile s dev lands := ⟨hsensor, hanswers, hdev⟩
  have hset := h.exec_setterOf (lt_validCount_of_ok ht hok)
  obtain rfl := Host.Outcome.next.inj (ht.symm.trans hset)
  obtain ⟨before, hbefore, hvalue⟩ := h.exec_getterOf g
  obtain ⟨after, hafter, hvalue'⟩ := (h.okWith_afterWrite 0#32 3 _ _ _).exec_getterOf g
  exact ⟨_, before, after, hbefore, hvalue, hafter, hvalue'.trans (by rw [← extractField_write hl hfg hdev v]; rfl)⟩

/-! ## SET_CONF with the default layout -/

/-- Output mode is the one field with fewer legal values than its bits hold (R120). -/
theorem fieldValidCount_of_ne_outs {f : Field} (h : f ≠ .outs) : fieldValidCount f = 2 ^ fieldWidth f := by
  cases f with
  | outs => exact absurd rfl h
  | pm | hyst | pwmf | sf | fth | wd => rfl

/-- Settles O23: output mode lies in bits 5:4 of the default layout's word, and no other field can be refused. -/
theorem defaultLayoutRejectsOutputModeThree : Obligations.DefaultLayoutRejectsOutputModeThree := by
  intro v s hlayout hv
  refine ⟨fun houts => exec_setConf_refused (.inr ⟨.outs, ?_⟩), fun houts => pairWriteEffect_setConf hv fun f => ?_⟩
  · rw [hlayout]
    exact houts.ge
  · by_cases hf : f = .outs
    · subst hf
      rw [hlayout]
      change v.toNat / 16 % 4 < 3
      omega
    · rw [fieldValidCount_of_ne_outs hf]
      exact Nat.mod_lt _ (Nat.two_pow_pos _)

/-! ## GETBF after SETBF -/

/-- A bit of the mask, shifted, stays within the 16 bits that the shifted mask fits. -/
theorem add_shift_lt_of_getLsbD {mask : Half} {shift k : Nat} (hmask : mask.toNat * 2 ^ shift < 2 ^ 16)
    (hk : mask.getLsbD k = true) : k + shift < 16 := by
  have hle : 2 ^ k ≤ mask.toNat := Nat.ge_two_pow_of_testBit hk
  refine (Nat.pow_lt_pow_iff_right (a := 2) (by decide)).1 ?_
  rw [Nat.pow_add]
  exact (Nat.mul_le_mul_right _ hle).trans_lt hmask

/-- Settles O51: bit by bit, what R102 inserts under the mask is what R103 extracts. -/
theorem getbfInvertsSetbf : Obligations.GetbfInvertsSetbf := by
  intro shift cur mask new hmask
  refine BitVec.eq_of_getLsbD_eq fun k _ => ?_
  rw [getLsbD_getBitfield, BitVec.getLsbD_and]
  cases hk : mask.getLsbD k with
  | false => simp
  | true =>
    rw [getLsbD_setBitfield _ _ _ _ (add_shift_lt_of_getLsbD hmask hk)]
    simp [hk]

end Sys2Proof.Machine
end

section
/-! PROOFS of the spec's own inferences about angles, offsets and samples (`43_angle_offset.md`): the wrapped difference
is the plain one modulo a turn, so the deltas of a run of samples add up; and what the host computes from them. -/

namespace Sys2Proof.Machine

open Sys2Proof.Claims

/-! ## The wrapped difference modulo a turn -/

/-- The wrapped difference and the plain one differ by whole turns (R179). -/
theorem wrapDelta_congruent (cur last : Int) : 4096 ∣ wrapDelta cur last - (cur - last) := by
  have hcases := wrapDelta_cases cur last
  omega

/-- Settles O52: WRAP_DELTA answers the wrapped difference, a plain difference up to one turn. -/
theorem wrapDeltaIsCongruent : Obligations.WrapDeltaIsCongruent := by
  intro cur last s hcur hlast
  refine ⟨_, exec_wrapDelta_accepted s hcur hlast, ?_⟩
  rw [toInt_sext32_wrapDelta hcur hlast]
  exact Int.emod_eq_zero_of_dvd (wrapDelta_congruent _ _)

/-- Settles O34: the wrapped difference differs from the true rotation by whole turns, and it lies within half a turn,
so there is none between them where the rotation does too. -/
theorem smallRotationsAreExact : Obligations.SmallRotationsAreExact := by
  intro cur last s m hcur hlast hm
  refine ⟨_, exec_wrapDelta_accepted s hcur hlast, ?_⟩
  rw [toInt_sext32_wrapDelta hcur hlast]
  obtain ⟨hlo, hhi⟩ := wrapDelta_bounds hcur hlast
  obtain ⟨k, hk⟩ : (4096 : Int) ∣ wrapDelta cur.toNat last.toNat - m := by
    have hcongruent := wrapDelta_congruent cur.toNat last.toNat
    omega
  exact ⟨fun _ _ => by omega, fun _ => by omega, fun _ => ⟨k, by omega, by omega⟩⟩

/-! ## The offset round trip -/

/-- GET_OFFSET_DEG's answer, where `OFFSET` holds 12 bits of `k` (R175). -/
theorem toNat_degrees_ofInt (k : Int) :
    ((BitVec.ofNat 32 ((BitVec.ofInt 12 k).toNat * 45)).toNat : Int) = k % 4096 * 45 := by
  have hoffset : ((BitVec.ofInt 12 k).toNat : Int) = k % 4096 := by
    rw [BitVec.toNat_ofInt]
    omega
  rw [BitVec.toNat_ofNat]
  omega

/-- Settles O31: the raw offset is nearest to the centidegrees, and keeping 12 bits of it drops whole turns only. -/
theorem offsetRoundTripsModuloTurn : Obligations.OffsetRoundTripsModuloTurn := by
  intro c s hc
  refine ⟨_, _, _, -(roundNearest (c.toInt * 128) 1125 / 4096), exec_setOffsetCdeg_accepted hc, exec_getOffsetDeg _,
    rfl, ?_⟩
  have hnearest := roundNearest_cdeg_nearest c.toInt
  simp only [okWith, toNat_degrees_ofInt]
  omega

/-! ## Runs of samples -/

/-- A report `(dr, dt)` measures the way from one sample to the next: the time mod 2^TSW, the angle mod 4096. -/
structure Measures (tsw : Nat) (first last : Sample) (dr dt : Int) : Prop where
  time : (2 ^ tsw : Int) ∣ dt - (last.lastTime.toNat - first.lastTime.toNat)
  angle : (4096 : Int) ∣ dr - (last.lastAngle.toNat - first.lastAngle.toNat)

theorem measures_refl (tsw : Nat) (x : Sample) : Measures tsw x x 0 0 := ⟨by simp, by simp⟩

/-- Two measures in turn add up. -/
theorem Measures.trans {tsw : Nat} {x y z : Sample} {dr dt dr' dt' : Int} (hxy : Measures tsw x y dr dt)
    (hyz : Measures tsw y z dr' dt') : Measures tsw x z (dr + dr') (dt + dt') := by
  have htime := dvd_add hxy.time hyz.time
  have hangle := dvd_add hxy.angle hyz.angle
  rw [sub_add_sub_comm, sub_add_sub_cancel'] at htime hangle
  exact ⟨htime, hangle⟩

theorem timeDelta_lt (p : Params) (now lt : Word) : timeDelta p now lt < 2 ^ p.tsw := by
  have h := timeDelta_cast p now lt
  have hmod := Int.emod_lt_of_pos ((now.toNat : Int) - lt.toNat) (b := 2 ^ p.tsw) (by positivity)
  rw [← h] at hmod
  exact_mod_cast hmod

/-- The deltas a sample reports for a non-zero time step measure the way from the sample before. -/
theorem sampleDelta_measures {p : Params} (hp : p.tsw ≤ 32) (old : Sample) (r : Angle) (now : Word)
    (h : BitVec.ofNat 32 (sampleDelta p (some old) r now).2 ≠ 0#32) :
    Measures p.tsw old ⟨r, now⟩ (sext32 (sampleDelta p (some old) r now).1).toInt
      (BitVec.ofNat 32 (sampleDelta p (some old) r now).2).toNat := by
  by_cases hzero : timeDelta p now old.lastTime = 0
  · rw [sampleDelta_of_timeDelta_zero r hzero] at h
    exact absurd rfl h
  have hlt : timeDelta p now old.lastTime < 2 ^ 32 :=
    (timeDelta_lt p now old.lastTime).trans_le (Nat.pow_le_pow_right (by decide) hp)
  rw [sampleDelta_of_timeDelta_ne_zero r hzero, BitVec.toNat_ofNat, Nat.mod_eq_of_lt hlt,
    toInt_sext32_wrapDelta (Nat.le_of_lt_succ r.isLt) (Nat.le_of_lt_succ old.lastAngle.isLt), timeDelta_cast]
  exact ⟨by simpa using Int.dvd_emod_sub_self, wrapDelta_congruent _ _⟩

/-- A SPEED_SAMPLE that ends OK with a non-zero time step records a sample and reports the way to it. -/
theorem speedSample_measures {s t : State} {now dr dt : Word} {first : Sample} (hp : s.params.tsw ≤ 32)
    (hfirst : s.hist = some first) (ht : exec (.speedSample now) s = .next t)
    (hok : t.response = some ⟨.ok, dr, dt⟩) (hdt : dt ≠ 0#32) :
    t.params = s.params ∧ ∃ last, t.hist = some last ∧ Measures s.params.tsw first last dr.toInt dt.toNat := by
  by_cases hnow : now.toNat < 2 ^ s.params.tsw
  · obtain ⟨hs, -⟩ | ⟨k, hk, hf, -⟩ := readPair_cases .w12 0x0C#8 s
    · obtain rfl := Host.Outcome.next.inj (ht.symm.trans (exec_speedSample_of_succeed hnow hs rfl))
      simp only [Option.some.injEq, Response.mk.injEq, true_and, hfirst] at hok
      obtain ⟨rfl, rfl⟩ := hok
      exact ⟨rfl, _, rfl, sampleDelta_measures hp first _ now hdt⟩
    · obtain rfl := Host.Outcome.next.inj (ht.symm.trans (exec_speedSample_of_failsAt hnow hk hf))
      exact absurd hok (by simp [busErrorOf])
  · obtain rfl := Host.Outcome.next.inj (ht.symm.trans (exec_speedSample_refused (Nat.le_of_not_lt hnow)))
    exact absurd hok (by simp [invalidOf])

/-- The reports of a run add up to the way from its first sample to its last. -/
theorem sampleRun_measures {s t : State} {reports : List (Word × Word)} {first : Sample} (hrun : SampleRun s reports t)
    (hp : s.params.tsw ≤ 32) (hfirst : s.hist = some first) :
    ∃ last, t.hist = some last ∧ Measures s.params.tsw first last (reports.map fun x => x.1.toInt).sum
      (reports.map fun x => (x.2.toNat : Int)).sum := by
  induction hrun generalizing first with
  | nil s => exact ⟨first, hfirst, measures_refl _ first⟩
  | cons hexec hok hdt _ ih =>
    obtain ⟨hparams, mid, hmid, hstep⟩ := speedSample_measures hp hfirst hexec hok hdt
    rw [hparams] at ih
    obtain ⟨last, hlast, hrest⟩ := ih hp hmid
    exact ⟨last, hlast, by simpa using hstep.trans hrest⟩

theorem tsw_le_of_wf {p : Params} (hp : p.wf = true) : p.tsw ≤ 32 := by
  simp only [Params.wf, Bool.and_eq_true, decide_eq_true_eq] at hp
  omega

/-- Settles O36, by induction on the run: each report measures one step, and measures add up. -/
theorem speedSamplesTelescope : Obligations.SpeedSamplesTelescope := by
  intro s t reports first hp hfirst hrun
  obtain ⟨last, hlast, hmeasures⟩ := sampleRun_measures hrun (tsw_le_of_wf hp) hfirst
  exact ⟨last, hlast, Int.emod_eq_zero_of_dvd hmeasures.time, Int.emod_eq_zero_of_dvd hmeasures.angle⟩

/-! ## The host's scales -/

theorem tickSeconds_pos {p : Params} (hp : p.wf = true) : 0 < tickSeconds p := by
  simp only [Params.wf, Bool.and_eq_true, decide_eq_true_eq] at hp
  have hnum : (0 : Rat) < p.tickNum := by exact_mod_cast (by omega : 0 < p.tickNum)
  have hden : (0 : Rat) < p.tickDen := by exact_mod_cast (by omega : 0 < p.tickDen)
  exact div_pos hnum hden

theorem speed_of_dt_zero (p : Params) (dr : Int) : speedDeg p dr 0 = 0 ∧ speedPiRad p dr 0 = 0 :=
  ⟨if_pos rfl, if_pos rfl⟩

theorem speed_of_dt_ne_zero (p : Params) (dr : Int) {dt : Nat} (hdt : dt ≠ 0) :
    speedDeg p dr dt = dr * (360 / 4096) / (dt * tickSeconds p) ∧
    speedPiRad p dr dt = dr * (2 / 4096) / (dt * tickSeconds p) :=
  ⟨if_neg hdt, if_neg hdt⟩

theorem speedPiRad_mul_half_turn (p : Params) (dr : Int) (dt : Nat) :
    speedPiRad p dr dt * 180 = speedDeg p dr dt := by
  by_cases hdt : dt = 0
  · subst hdt
    simp [speed_of_dt_zero]
  · rw [(speed_of_dt_ne_zero p dr hdt).1, (speed_of_dt_ne_zero p dr hdt).2]
    ring

/-- The host's raw angle and TO_DEG's exact degrees are the same angle (R177, R178). -/
theorem rawPiRad_mul_half_turn {r : Nat} (hr : r ≤ 4095) : rawPiRad r * 180 = ((degrees512 r).toNat : Rat) / 512 := by
  have hdeg : (degrees512 r).toNat = r * 45 := by
    rw [degrees512, BitVec.toNat_ofNat]
    omega
  rw [rawPiRad, hdeg]
  push_cast
  ring

/-- Settles O37: a speed is the scaled delta over the elapsed seconds, which are positive for a non-zero `dt`. -/
theorem hostScalesAgree : Obligations.HostScalesAgree := by
  refine ⟨fun p dr dt hp => ⟨?zero, fun hdt => ?step, speedPiRad_mul_half_turn p dr dt⟩,
    fun r => rawPiRad_mul_half_turn⟩
  case zero =>
    rintro rfl
    exact speed_of_dt_zero p dr
  case step =>
    obtain ⟨hdeg, hrad⟩ := speed_of_dt_ne_zero p dr hdt
    have hseconds : 0 < (dt : Rat) * tickSeconds p :=
      mul_pos (by exact_mod_cast Nat.pos_of_ne_zero hdt) (tickSeconds_pos hp)
    have helapsed : (dt : Rat) * p.tickNum / p.tickDen = dt * tickSeconds p := mul_div_assoc _ _ _
    rw [hdeg, hrad, helapsed, div_mul_cancel₀ _ hseconds.ne', div_mul_cancel₀ _ hseconds.ne']
    refine ⟨by ring, by ring, ?_, ?_⟩
    · rw [lt_div_iff₀ hseconds, zero_mul, mul_pos_iff_of_pos_right (by norm_num), Int.cast_pos]
    · rw [div_lt_iff₀ hseconds, zero_mul, ← lt_div_iff₀ (by norm_num), zero_div, Int.cast_lt_zero]

end Sys2Proof.Machine
end
